-- ==== Sys2Proof/Word.lean ====
section
/-! DEFINITION. The words of the hardware and the 4-byte frame (00_scope.md R7, R9, R10). -/

namespace Sys2Proof

/-- `u4`: the CRC register, the CRC nibble and the command code (00_scope.md R7, R10). -/
abbrev Nibble := BitVec 4
/-- `u7`: a register's address code (00_scope.md R7, R10). -/
abbrev Addr7 := BitVec 7
/-- `u8`: one byte of a frame (00_scope.md R9, R10). -/
abbrev Byte := BitVec 8
/-- `u16`: one register value (00_scope.md R7, R10). -/
abbrev Half := BitVec 16

/-- The frame, "a 4-entry byte array" `f[0]` to `f[3]` (00_scope.md R9, 30_encoding.md R60). -/
structure Frame where
  b0 : Byte
  b1 : Byte
  b2 : Byte
  b3 : Byte
deriving DecidableEq, Repr, Inhabited

end Sys2Proof
end

