-- ==== Sys2Proof/Config.lean ====
section
/-! DEFINITION. The hardwired constants, the parameters of 00_scope.md R8, the types of the environment's
answers, and the free value that stands for the transport oracle. -/

namespace Sys2Proof

/-- The chip-select line's two levels (10_state.md R28). -/
inductive CsLevel where
  | low
  | high
deriving DecidableEq, Repr, Inhabited

/-- Which numbers name an error of the transport beside 0: the open part of the parameter `TransportError`
(00_scope.md R8, 92_eei_decisions.md D2). No body: which and how many errors there are is not determined. -/
opaque Config.namesTransportError : Nat → Bool

/-- `TransportError`, "opaque, parameterized by the transport's own error type" (00_scope.md R8): an open type, the
numbers that the uninterpreted `Config.namesTransportError` admits, and 0, so that a transfer can fail. No rule reads
an error. DESIGN CHOICE (log entry 3), safe: only that the errors can be numbered and are not none is fixed. -/
structure TransportError where
  label : Nat
  named : (label == 0 || Config.namesTransportError label) = true
deriving DecidableEq, Repr

/-- What a transfer that returns gives: `Ok(g)` or `Err(e)` (10_state.md R27). -/
inductive XferOutcome where
  | ok (g : Frame)
  | err (e : TransportError)
deriving DecidableEq, Repr, Inhabited

/-- The three outcomes of one `Transfer` call (10_state.md R27): it returns, or it never does. -/
inductive Answer where
  | returns (out : XferOutcome)
  | neverReturns
deriving DecidableEq, Repr, Inhabited

/-- What a chip-select set call reports (00_scope.md R8 `gpio_result`). -/
inductive GpioReport where
  | done
  | error
deriving DecidableEq, Repr, Inhabited

namespace Config

/-- CRC_POLY (00_scope.md R6). -/
def crcPoly : Nibble := 0x3#4
/-- CRC_INIT (00_scope.md R6). -/
def crcInit : Nibble := 0xF#4
/-- CRC_XOROUT (00_scope.md R6). CRC_REFIN and CRC_REFOUT are false: bytes are fed most significant bit first
and the remainder is returned as it stands (40_crc_engine.md R103, R102). -/
def crcXorOut : Nibble := 0x0#4

/-- The command code of a call that leaves it out (30_encoding.md R69). -/
def defaultCommand : Nibble := 0x0#4

/-- `crc_powerup` as `State.reset` takes it; the spec leaves it any `u4` (10_state.md R21).
DESIGN CHOICE (log entry 5), unsafe. -/
def crcPowerup : Nibble := 0x0#4

/-- `cs_initial` as `State.reset` takes it: the launch premise (70_reset_and_hazards.md R241, R242).
DESIGN CHOICE (log entry 6), unsafe. -/
def csInitial : CsLevel := .high

/-- The transport oracle's free draw (10_state.md R27): the answer to the `n`-th transfer, whose request is
`req`, where the environment's list of answers gives none. No body: nothing constrains it (log entry 3). -/
opaque transportDraw (n : Nat) (req : Frame) : Answer

end Config

end Sys2Proof
end

