-- ==== Sys2Proof/Machine/Crc.lean ====
section
/-! DEFINITION. The CRC-4 polynomial division as pure functions (40_crc_engine.md R103, R104). -/

namespace Sys2Proof

/-- One step of the division (40_crc_engine.md R103): feed back the input bit XOR the top bit, shift left, and
XOR the polynomial in on feedback. PRESUMED (log entry 14): the spec marks this form as general knowledge. -/
def crcStep (reg : Nibble) (bit : Bool) : Nibble :=
  if bit ^^ reg.getLsbD 3 then (reg <<< 1) ^^^ Config.crcPoly else reg <<< 1

/-- A byte's bits in feeding order, `b[7]` down to `b[0]`: "reflect-in=false" (40_crc_engine.md R103). -/
def byteBits (b : Byte) : List Bool :=
  [b.getLsbD 7, b.getLsbD 6, b.getLsbD 5, b.getLsbD 4, b.getLsbD 3, b.getLsbD 2, b.getLsbD 1, b.getLsbD 0]

/-- One byte through the division (40_crc_engine.md R101). -/
def crcByte (reg : Nibble) (b : Byte) : Nibble := (byteBits b).foldl crcStep reg

/-- A byte sequence through the division, in list order (40_crc_engine.md R101). -/
def crcBytes (reg : Nibble) (bs : List Byte) : Nibble := bs.foldl crcByte reg

/-- What CRC_FINISH returns of the register: `(crc_reg ^ CRC_XOROUT) & 0xF` (40_crc_engine.md R102). -/
def crcOutput (reg : Nibble) : Nibble := (reg ^^^ Config.crcXorOut) &&& 0xF#4

/-- The pure function CRC4 (40_crc_engine.md R104). -/
def crc4 (bs : List Byte) : Nibble := crcBytes Config.crcInit bs

end Sys2Proof
end

