-- ==== Sys2Proof/Syntax.lean ====
section
/-! DEFINITION. The 20 registers, the 16 operations with their operands, and the calls a caller writes
(30_encoding.md R68 to R78, 44_register_address_decoder.md R190). -/

namespace Sys2Proof

/-- `Register`, a closed enumeration of the 20 defined registers (30_encoding.md R68,
44_register_address_decoder.md R190). -/
inductive Register where
  | deviceConfig | sensorConfig | systemConfig | alertConfig
  | xThrxConfig | yThrxConfig | zThrxConfig | tThrxConfig
  | convStatus | xChResult | yChResult | zChResult
  | tempResult | afeStatus | sysStatus | testConfig
  | oscMonitor | magGainConfig | angleResult | magnitudeResult
deriving DecidableEq, Repr, Inhabited

/-- The 16 mnemonics of 30_encoding.md R71. -/
inductive Opcode where
  | crcReset | crcUpdate | crcFinish
  | frameWrite | frameRead | frameSpecial
  | validate | decodeReg | decodeRegS16 | decodeDual
  | writeReg | readReg | readRegS16 | specialRead
  | addrEncode | addrDecode
deriving DecidableEq, Repr, Inhabited

/-- An operation with its operands: one constructor per row of spec/opcode_table.json (30_encoding.md R71). -/
inductive Instr where
  | crcReset
  | crcUpdate (bs : List Byte)
  | crcFinish
  | frameWrite (r : Register) (v : Half) (c : Nibble)
  | frameRead (r : Register) (c : Nibble)
  | frameSpecial (c : Nibble)
  | validate (g : Frame)
  | decodeReg (g : Frame)
  | decodeRegS16 (g : Frame)
  | decodeDual (g : Frame)
  | writeReg (r : Register) (v : Half) (c : Nibble)
  | readReg (r : Register) (c : Nibble)
  | readRegS16 (r : Register) (c : Nibble)
  | specialRead (c : Nibble)
  | addrEncode (r : Register)
  | addrDecode (code : Addr7)
deriving DecidableEq, Repr, Inhabited

/-- The mnemonic of an operation. -/
def Instr.opcode : Instr → Opcode
  | .crcReset => .crcReset
  | .crcUpdate _ => .crcUpdate
  | .crcFinish => .crcFinish
  | .frameWrite _ _ _ => .frameWrite
  | .frameRead _ _ => .frameRead
  | .frameSpecial _ => .frameSpecial
  | .validate _ => .validate
  | .decodeReg _ => .decodeReg
  | .decodeRegS16 _ => .decodeRegS16
  | .decodeDual _ => .decodeDual
  | .writeReg _ _ _ => .writeReg
  | .readReg _ _ => .readReg
  | .readRegS16 _ _ => .readRegS16
  | .specialRead _ => .specialRead
  | .addrEncode _ => .addrEncode
  | .addrDecode _ => .addrDecode

/-- A transaction with what it builds and decodes by (43_transactions.md R161, R170 to R173). -/
inductive Transaction where
  | writeReg (r : Register) (v : Half) (c : Nibble)
  | readReg (r : Register) (c : Nibble)
  | readRegS16 (r : Register) (c : Nibble)
  | specialRead (c : Nibble)
deriving DecidableEq, Repr, Inhabited

/-- The operation that runs a transaction. -/
def Transaction.instr : Transaction → Instr
  | .writeReg r v c => .writeReg r v c
  | .readReg r c => .readReg r c
  | .readRegS16 r c => .readRegS16 r c
  | .specialRead c => .specialRead c

/-- A register operand as a caller may give it: by name, or by a raw code (60_exceptions.md R213). -/
inductive RegOperand where
  | name (r : Register)
  | code (a : Addr7)
deriving DecidableEq, Repr, Inhabited

/-- A call as the caller writes it, before its operands are checked: the command may be left out
(30_encoding.md R69) or out of range, the register may be a raw code (60_exceptions.md R213), and the call may
be a pseudo-operation (30_encoding.md R78). `word` is the MODEL's own form of a call, given by the bytes of its
request frame (DESIGN CHOICE, log entry 2). -/
inductive Call where
  | crcReset
  | crcUpdate (bs : List Byte)
  | crcFinish
  | frameWrite (r : RegOperand) (v : Half) (cmd : Option Nat)
  | frameRead (r : RegOperand) (cmd : Option Nat)
  | frameSpecial (cmd : Option Nat)
  | validate (g : Frame)
  | decodeReg (g : Frame)
  | decodeRegS16 (g : Frame)
  | decodeDual (g : Frame)
  | writeReg (r : RegOperand) (v : Half) (cmd : Option Nat)
  | readReg (r : RegOperand) (cmd : Option Nat)
  | readRegS16 (r : RegOperand) (cmd : Option Nat)
  | specialRead (cmd : Option Nat)
  | addrEncode (r : RegOperand)
  | addrDecode (code : Addr7)
  | triggerConversion (v : Half)
  | applyDeviceConfig (v : Half)
  | applySensorConfig (v : Half)
  | applySystemConfig (v : Half)
  | applyAlertConfig (v : Half)
  | word (bytes : List Byte)
deriving DecidableEq, Repr, Inhabited

/-- The call that writes an operation out in full. -/
def Instr.call : Instr → Call
  | .crcReset => .crcReset
  | .crcUpdate bs => .crcUpdate bs
  | .crcFinish => .crcFinish
  | .frameWrite r v c => .frameWrite (.name r) v (some c.toNat)
  | .frameRead r c => .frameRead (.name r) (some c.toNat)
  | .frameSpecial c => .frameSpecial (some c.toNat)
  | .validate g => .validate g
  | .decodeReg g => .decodeReg g
  | .decodeRegS16 g => .decodeRegS16 g
  | .decodeDual g => .decodeDual g
  | .writeReg r v c => .writeReg (.name r) v (some c.toNat)
  | .readReg r c => .readReg (.name r) (some c.toNat)
  | .readRegS16 r c => .readRegS16 (.name r) (some c.toNat)
  | .specialRead c => .specialRead (some c.toNat)
  | .addrEncode r => .addrEncode (.name r)
  | .addrDecode code => .addrDecode code

end Sys2Proof
end

