-- ==== Sys2Proof/Machine/AddressMap.lean ====
section
/-! DEFINITION. The two-way map between the 20 registers and their 7-bit codes (44_register_address_decoder.md
R190, R191, R193), and the split of a frame's byte 0 (R195). -/

namespace Sys2Proof

/-- `addr_code`, the address column of 44_register_address_decoder.md R190. DEDUCED (log entry 19): the order
inside the two compressed ranges is the spec's reading of its source, its decision D32. -/
def addrCode : Register → Addr7
  | .deviceConfig => 0x00#7
  | .sensorConfig => 0x01#7
  | .systemConfig => 0x02#7
  | .alertConfig => 0x03#7
  | .xThrxConfig => 0x04#7
  | .yThrxConfig => 0x05#7
  | .zThrxConfig => 0x06#7
  | .tThrxConfig => 0x07#7
  | .convStatus => 0x08#7
  | .xChResult => 0x09#7
  | .yChResult => 0x0A#7
  | .zChResult => 0x0B#7
  | .tempResult => 0x0C#7
  | .afeStatus => 0x0D#7
  | .sysStatus => 0x0E#7
  | .testConfig => 0x0F#7
  | .oscMonitor => 0x10#7
  | .magGainConfig => 0x11#7
  | .angleResult => 0x13#7
  | .magnitudeResult => 0x14#7

/-- The 20 registers in the order of 44_register_address_decoder.md R190. -/
def allRegisters : List Register :=
  [.deviceConfig, .sensorConfig, .systemConfig, .alertConfig,
   .xThrxConfig, .yThrxConfig, .zThrxConfig, .tThrxConfig,
   .convStatus, .xChResult, .yChResult, .zChResult,
   .tempResult, .afeStatus, .sysStatus, .testConfig,
   .oscMonitor, .magGainConfig, .angleResult, .magnitudeResult]

/-- The register a code names, if any: "if exists r : Register with addr_code(r) = code"
(44_register_address_decoder.md R193). -/
def addrDecode (code : Addr7) : Option Register := allRegisters.find? fun r => addrCode r == code

/-- Byte 0 of a frame: the flag `b[7]` and the register that `b[6:0]` names (44_register_address_decoder.md R195). -/
def splitByte0 (b : Byte) : Bool × Option Register := (b.getLsbD 7, addrDecode (b.extractLsb' 0 7))

end Sys2Proof
end

