-- ==== Sys2Proof/Machine/Bytes.lean ====
section
/-! DEFINITION. Byte and bit order (20_memory.md R43, R44; 00_scope.md R9): a half-word's two bytes, a frame's
bytes in index order, the number `W(f)`, and the CRC nibble of byte 3. -/

namespace Sys2Proof

/-- `v[15:8]` (20_memory.md R43). -/
def highByte (v : Half) : Byte := v.extractLsb' 8 8

/-- `v[7:0]` (20_memory.md R43). -/
def lowByte (v : Half) : Byte := v.extractLsb' 0 8

/-- The frame's bytes in index order (20_memory.md R44). -/
def Frame.bytes (f : Frame) : List Byte := [f.b0, f.b1, f.b2, f.b3]

/-- The frame whose bytes these are, when there are exactly four (30_encoding.md R60, R75). -/
def Frame.ofBytes : List Byte → Option Frame
  | [b0, b1, b2, b3] => some ⟨b0, b1, b2, b3⟩
  | _ => none

/-- `W(f) = f[0]<<24 | f[1]<<16 | f[2]<<8 | f[3]` (00_scope.md R9). -/
def Frame.word (f : Frame) : BitVec 32 := f.b0 ++ f.b1 ++ f.b2 ++ f.b3

/-- The frame `f` with `W(f) = w` (00_scope.md R9). -/
def Frame.ofWord (w : BitVec 32) : Frame :=
  ⟨w.extractLsb' 24 8, w.extractLsb' 16 8, w.extractLsb' 8 8, w.extractLsb' 0 8⟩

/-- Field K, `f[3][3:0]` (30_encoding.md R65). -/
def Frame.crcNibble (f : Frame) : Nibble := f.b3.extractLsb' 0 4

/-- The frame with its CRC nibble zeroed, `f[3] & 0xF0` (42_response_validator.md R140). -/
def Frame.zeroCrc (f : Frame) : Frame := { f with b3 := f.b3 &&& 0xF0#8 }

/-- The frame with `k` ORed into the low nibble of byte 3 (41_frame_constructor.md R122). -/
def Frame.orCrc (f : Frame) (k : Nibble) : Frame := { f with b3 := f.b3 ||| k.zeroExtend 8 }

end Sys2Proof
end

