-- ==== Sys2Proof/Machine/Operands.lean ====
section
/-! DEFINITION. How operands enter a request frame and how results come back out of a response
(30_encoding.md R70): the layouts of 41_frame_constructor.md R124 to R126 with the CRC nibble still zero, and the
decode functions of 42_response_validator.md R144, R145 and R147. -/

namespace Sys2Proof

/-- Byte 3 before the CRC is inserted: `f[3] <- c << 4` (41_frame_constructor.md R121). -/
def commandByte (c : Nibble) : Byte := c.zeroExtend 8 <<< 4

/-- The layout of a register write, `R = 0` (41_frame_constructor.md R124). -/
def layoutWrite (r : Register) (v : Half) (c : Nibble) : Frame :=
  ⟨(addrCode r).zeroExtend 8, highByte v, lowByte v, commandByte c⟩

/-- The layout of a register read, `R = 1` (41_frame_constructor.md R125). -/
def layoutRead (r : Register) (c : Nibble) : Frame :=
  ⟨(addrCode r).zeroExtend 8 ||| 0x80#8, 0x00#8, 0x00#8, commandByte c⟩

/-- The layout of the special read (41_frame_constructor.md R126). -/
def layoutSpecial (c : Nibble) : Frame := ⟨0x80#8, 0x00#8, 0x00#8, commandByte c⟩

/-- DECODE_REG's value, `(zext_16(g[1]) << 8) | zext_16(g[2])` (42_response_validator.md R144). -/
def regValue (g : Frame) : Half := (g.b1.zeroExtend 16 <<< 8) ||| g.b2.zeroExtend 16

/-- `as_s16(u) = u if u < 0x8000, else u - 0x10000` (42_response_validator.md R145). PRESUMED (log entry 14):
the spec marks the two's-complement reading as general knowledge. -/
def asS16 (u : Half) : Int := if u.toNat < 0x8000 then u.toNat else (u.toNat : Int) - 0x10000

/-- DECODE_DUAL's first value, `(zext_16(g[1]) << 4) | zext_16(g[2] & 0x0F)` (42_response_validator.md R147). -/
def dualFirst (g : Frame) : Half := (g.b1.zeroExtend 16 <<< 4) ||| (g.b2 &&& 0x0F#8).zeroExtend 16

/-- DECODE_DUAL's second value, `(zext_16(g[0]) << 4) | zext_16(g[2] >> 4)` (42_response_validator.md R147). -/
def dualSecond (g : Frame) : Half := (g.b0.zeroExtend 16 <<< 4) ||| (g.b2 >>> 4).zeroExtend 16

/-- The frame a transaction lays out at S1 (43_transactions.md R161, R170 to R173). -/
def Transaction.layout : Transaction → Frame
  | .writeReg r v c => layoutWrite r v c
  | .readReg r c => layoutRead r c
  | .readRegS16 r c => layoutRead r c
  | .specialRead c => layoutSpecial c

end Sys2Proof
end

