-- ==== Sys2Proof/WellFormed.lean ====
section
/-! DEFINITION. When a call can be written with the operand types of 30_encoding.md R68: the command is 0x0 to
0xF, a raw register code names one of the 20 registers, and a call word is a request of one of the three forms
of R66. An `Instr` holds only operands of those types, so every `Instr` is well-formed. -/

namespace Sys2Proof

/-- The codes that name a register: {0x00, …, 0x11, 0x13, 0x14} (44_register_address_decoder.md R191). -/
def codeIsDefined (a : Addr7) : Bool :=
  a.toNat ≤ 0x11 || a.toNat == 0x13 || a.toNat == 0x14

/-- The command operand is a `u4`, "0x0–0xF", or left out (30_encoding.md R68, R69). -/
def commandInRange : Option Nat → Bool
  | none => true
  | some n => n ≤ 15

/-- The register operand can be written as a `Register` (30_encoding.md R68, 60_exceptions.md R213). -/
def RegOperand.wellFormed : RegOperand → Bool
  | .name _ => true
  | .code a => codeIsDefined a

/-- A call word is 4 bytes of a request form the block emits, its CRC nibble aside (30_encoding.md R66, R74):
a write to a defined address, or a read of one with both payload bytes zero. -/
def wordWellFormed : List Byte → Bool
  | [b0, b1, b2, _] =>
    codeIsDefined (b0.extractLsb' 0 7) && (!b0.getLsbD 7 || (b1 == 0x00#8 && b2 == 0x00#8))
  | _ => false

/-- The call passes the grammar of 30_encoding.md R68. -/
def Call.wellFormed : Call → Bool
  | .crcReset => true
  | .crcUpdate _ => true
  | .crcFinish => true
  | .frameWrite r _ cmd => r.wellFormed && commandInRange cmd
  | .frameRead r cmd => r.wellFormed && commandInRange cmd
  | .frameSpecial cmd => commandInRange cmd
  | .validate _ => true
  | .decodeReg _ => true
  | .decodeRegS16 _ => true
  | .decodeDual _ => true
  | .writeReg r _ cmd => r.wellFormed && commandInRange cmd
  | .readReg r cmd => r.wellFormed && commandInRange cmd
  | .readRegS16 r cmd => r.wellFormed && commandInRange cmd
  | .specialRead cmd => commandInRange cmd
  | .addrEncode r => r.wellFormed
  | .addrDecode _ => true
  | .triggerConversion _ => true
  | .applyDeviceConfig _ => true
  | .applySensorConfig _ => true
  | .applySystemConfig _ => true
  | .applyAlertConfig _ => true
  | .word bytes => wordWellFormed bytes

end Sys2Proof
end

