-- ==== Sys2Proof/Decode.lean ====
section
/-! DEFINITION. Decoding of request frames and of calls, total and rejecting by name, and the encoder.
The only binary encodings of this hardware are the request frames of 30_encoding.md R60 to R66; the opcode tells
apart the operations that share one form (R41, R66, R77). -/

namespace Sys2Proof

/-- Why a byte sequence is not the request of an operation. -/
inductive DecodeReject where
  /-- not exactly 4 bytes (30_encoding.md R75) -/
  | wrongLength
  /-- the operation has no binary encoding (30_encoding.md R77) -/
  | noEncoding
  /-- the read flag or the fixed address bits are not those of the operation's form (30_encoding.md R66) -/
  | wrongForm
  /-- the address field names no register (30_encoding.md R73) -/
  | undefinedAddress
  /-- a read-form request with a nonzero payload byte (30_encoding.md R74) -/
  | payloadNotZero
  /-- the CRC nibble differs from the CRC of the other 28 bits (30_encoding.md R65, R74) -/
  | wrongCrc
deriving DecidableEq, Repr, Inhabited

/-- Why a call has no meaning: the grammar refusals of 60_exceptions.md R213, and the MODEL's own for a call word. -/
inductive CallReject where
  | commandOutOfRange
  | notARegister
  | notARequest (why : DecodeReject)
deriving DecidableEq, Repr, Inhabited

/-- The fields R, A, DH:DL and C of a frame (30_encoding.md R60). -/
structure Fields where
  readFlag : Bool
  addr : Addr7
  payload : Half
  command : Nibble
deriving DecidableEq, Repr

/-- Field extraction (30_encoding.md R60 to R64). -/
def Frame.fields (f : Frame) : Fields :=
  { readFlag := f.b0.getLsbD 7
    addr := f.b0.extractLsb' 0 7
    payload := f.b1 ++ f.b2
    command := f.b3.extractLsb' 4 4 }

/-- The register and command of a write-form request (30_encoding.md R66). -/
def Fields.asWrite (x : Fields) (mk : Register → Half → Nibble → Instr) : Except DecodeReject Instr :=
  if x.readFlag then .error .wrongForm
  else match addrDecode x.addr with
    | none => .error .undefinedAddress
    | some r => .ok (mk r x.payload x.command)

/-- The register and command of a read-form request (30_encoding.md R66). -/
def Fields.asRead (x : Fields) (mk : Register → Nibble → Instr) : Except DecodeReject Instr :=
  if x.readFlag then
    match addrDecode x.addr with
    | none => .error .undefinedAddress
    | some r => if x.payload = 0x0000#16 then .ok (mk r x.command) else .error .payloadNotZero
  else .error .wrongForm

/-- The command of a special-form request (30_encoding.md R66). -/
def Fields.asSpecial (x : Fields) (mk : Nibble → Instr) : Except DecodeReject Instr :=
  if x.readFlag && x.addr == 0x00#7 then
    if x.payload = 0x0000#16 then .ok (mk x.command) else .error .payloadNotZero
  else .error .wrongForm

/-- The operands of the operation `op` in a request's fields; the CRC nibble is no operand (30_encoding.md R66). -/
def Fields.operandsFor (x : Fields) : Opcode → Except DecodeReject Instr
  | .frameWrite => x.asWrite .frameWrite
  | .frameRead => x.asRead .frameRead
  | .frameSpecial => x.asSpecial .frameSpecial
  | .writeReg => x.asWrite .writeReg
  | .readReg => x.asRead .readReg
  | .readRegS16 => x.asRead .readRegS16
  | .specialRead => x.asSpecial .specialRead
  | .crcReset => .error .noEncoding
  | .crcUpdate => .error .noEncoding
  | .crcFinish => .error .noEncoding
  | .validate => .error .noEncoding
  | .decodeReg => .error .noEncoding
  | .decodeRegS16 => .error .noEncoding
  | .decodeDual => .error .noEncoding
  | .addrEncode => .error .noEncoding
  | .addrDecode => .error .noEncoding

/-- Field K agrees with the other 28 bits (30_encoding.md R65). -/
def Frame.crcAgrees (f : Frame) : Bool := crc4 f.zeroCrc.bytes == f.crcNibble

/-- The operation `op` whose request these bytes are, or why there is none: every request the block emits has one
of the three forms and the CRC nibble of its other bits (30_encoding.md R65, R66, R74). -/
def decode (op : Opcode) (bytes : List Byte) : Except DecodeReject Instr :=
  match Frame.ofBytes bytes with
  | none => .error .wrongLength
  | some f =>
    match f.fields.operandsFor op with
    | .error e => .error e
    | .ok i => if f.crcAgrees then .ok i else .error .wrongCrc

/-- The transaction a call word stands for. One form belongs to several operations (30_encoding.md R66), so the
MODEL picks by the most specific pattern: special, then read, then write; the unsigned read for the read form.
DESIGN CHOICE (log entry 2). -/
def Fields.wordOpcode (x : Fields) : Opcode :=
  if x.readFlag then if x.addr = 0x00#7 then .specialRead else .readReg else .writeReg

/-- The operation a call word stands for. Its CRC nibble is not read: it is no operand, and the block computes it
(30_encoding.md R66). DESIGN CHOICE (log entry 2). -/
def decodeWord (bytes : List Byte) : Except DecodeReject Instr :=
  match Frame.ofBytes bytes with
  | none => .error .wrongLength
  | some f => f.fields.operandsFor f.fields.wordOpcode

/-- The bytes of a word of spec/opcode_table.json: one number `W(f)`, bit 31 leftmost (00_scope.md R9). -/
def tableBytes (nbits w : Nat) : List Byte :=
  if nbits = 32 ∧ w < 2 ^ 32 then (Frame.ofWord (BitVec.ofNat 32 w)).bytes else []

/-- The operation the decoder reads from a word of spec/opcode_table.json. -/
def decodeTableWord (nbits w : Nat) : Option Instr :=
  match decodeWord (tableBytes nbits w) with
  | .ok i => some i
  | .error _ => none

/-- The command operand: 0x0 where it is left out (30_encoding.md R69), refused outside 0x0 to 0xF
(60_exceptions.md R213). -/
def resolveCommand : Option Nat → Except CallReject Nibble
  | none => .ok Config.defaultCommand
  | some n => if n ≤ 15 then .ok (BitVec.ofNat 4 n) else .error .commandOutOfRange

/-- The register operand: a raw code is taken for the register it names and refused where it names none
(60_exceptions.md R213). DEDUCED (log entry 11). -/
def resolveRegister : RegOperand → Except CallReject Register
  | .name r => .ok r
  | .code a => match addrDecode a with
    | some r => .ok r
    | none => .error .notARegister

/-- Both operands, the register first. DESIGN CHOICE (log entry 12). -/
def resolveOperands (r : RegOperand) (cmd : Option Nat) (mk : Register → Nibble → Instr) :
    Except CallReject Instr :=
  match resolveRegister r with
  | .error e => .error e
  | .ok r => match resolveCommand cmd with
    | .error e => .error e
    | .ok c => .ok (mk r c)

/-- The command operand alone. -/
def resolveCommandOnly (cmd : Option Nat) (mk : Nibble → Instr) : Except CallReject Instr :=
  match resolveCommand cmd with
  | .error e => .error e
  | .ok c => .ok (mk c)

/-- The operation a call stands for, or why it has no meaning (30_encoding.md R68, R69, R78; 60_exceptions.md
R213). The `apply` pseudo-operations follow the spec's decision D19, DEDUCED (log entry 19). -/
def Call.resolve : Call → Except CallReject Instr
  | .crcReset => .ok .crcReset
  | .crcUpdate bs => .ok (.crcUpdate bs)
  | .crcFinish => .ok .crcFinish
  | .frameWrite r v cmd => resolveOperands r cmd (fun r c => .frameWrite r v c)
  | .frameRead r cmd => resolveOperands r cmd .frameRead
  | .frameSpecial cmd => resolveCommandOnly cmd .frameSpecial
  | .validate g => .ok (.validate g)
  | .decodeReg g => .ok (.decodeReg g)
  | .decodeRegS16 g => .ok (.decodeRegS16 g)
  | .decodeDual g => .ok (.decodeDual g)
  | .writeReg r v cmd => resolveOperands r cmd (fun r c => .writeReg r v c)
  | .readReg r cmd => resolveOperands r cmd .readReg
  | .readRegS16 r cmd => resolveOperands r cmd .readRegS16
  | .specialRead cmd => resolveCommandOnly cmd .specialRead
  | .addrEncode r => match resolveRegister r with
    | .error e => .error e
    | .ok r => .ok (.addrEncode r)
  | .addrDecode code => .ok (.addrDecode code)
  | .triggerConversion v => .ok (.writeReg .deviceConfig v 0x1#4)
  | .applyDeviceConfig v => .ok (.writeReg .deviceConfig v Config.defaultCommand)
  | .applySensorConfig v => .ok (.writeReg .sensorConfig v Config.defaultCommand)
  | .applySystemConfig v => .ok (.writeReg .systemConfig v Config.defaultCommand)
  | .applyAlertConfig v => .ok (.writeReg .alertConfig v Config.defaultCommand)
  | .word bytes => match decodeWord bytes with
    | .error e => .error (.notARequest e)
    | .ok i => .ok i

/-! The encoder, from the patterns of 30_encoding.md R66 and spec/opcode_table.json. -/

/-- The write pattern `0aaaaaaa dddddddd dddddddd cccckkkk`. -/
def encodeWrite (a : Addr7) (v : Half) (c k : Nibble) : BitVec 32 := 0#1 ++ a ++ v ++ c ++ k

/-- The read pattern `1aaaaaaa 00000000 00000000 cccckkkk`. -/
def encodeRead (a : Addr7) (c k : Nibble) : BitVec 32 := 1#1 ++ a ++ 0x0000#16 ++ c ++ k

/-- The special pattern `10000000 00000000 00000000 cccckkkk`. -/
def encodeSpecial (c k : Nibble) : BitVec 32 := 1#1 ++ 0x00#7 ++ 0x0000#16 ++ c ++ k

/-- A pattern with `k` the CRC4 of the frame whose bits 3:0 are zero (30_encoding.md R65). -/
def withCrc (pattern : Nibble → BitVec 32) : Frame :=
  Frame.ofWord (pattern (crc4 (Frame.ofWord (pattern 0x0#4)).bytes))

/-- The request frame of an operation; none where the table says it has no encoding (30_encoding.md R77). -/
def encode : Instr → Option Frame
  | .frameWrite r v c => some (withCrc (encodeWrite (addrCode r) v c))
  | .frameRead r c => some (withCrc (encodeRead (addrCode r) c))
  | .frameSpecial c => some (withCrc (encodeSpecial c))
  | .writeReg r v c => some (withCrc (encodeWrite (addrCode r) v c))
  | .readReg r c => some (withCrc (encodeRead (addrCode r) c))
  | .readRegS16 r c => some (withCrc (encodeRead (addrCode r) c))
  | .specialRead c => some (withCrc (encodeSpecial c))
  | .crcReset => none
  | .crcUpdate _ => none
  | .crcFinish => none
  | .validate _ => none
  | .decodeReg _ => none
  | .decodeRegS16 _ => none
  | .decodeDual _ => none
  | .addrEncode _ => none
  | .addrDecode _ => none

end Sys2Proof
end

