-- ==== Sys2Proof/Machine/State.lean ====
section
/-! DEFINITION. The machine's state as plain data (10_state.md), the results and events of operations, the reasons
a step can stop, and the state after construction (70_reset_and_hazards.md R241). -/

namespace Sys2Proof.Machine

/-- `crc_phase` (10_state.md R22); `opened` is the spec's Open. -/
inductive CrcPhase where
  | unreset
  | opened
  | closed
deriving DecidableEq, Repr, Inhabited

/-- `tx_step` (10_state.md R29): the protocol step that runs next, or Idle. -/
inductive TxStep where
  | idle
  | s1
  | s2
  | s3
  | s4
  | s5
  | s6
  | s7
  | s8
deriving DecidableEq, Repr, Inhabited

/-- The success values of the 16 operations (30_encoding.md R71, 00_scope.md R12). -/
inductive Value where
  | unit
  | u4 (v : Nibble)
  | u7 (v : Addr7)
  | u16 (v : Half)
  | s16 (v : Int)
  | pair (first second : Half)
  | frame (g : Frame)
  | register (r : Option Register)
deriving DecidableEq, Repr, Inhabited

/-- The two error kinds (60_exceptions.md R210, R211, R212). -/
inductive OpError where
  | transportFault (e : TransportError)
  | integrityFault
deriving DecidableEq, Repr, Inhabited

/-- How an operation that returns ends: `Ok(v)` or an error (00_scope.md R12). -/
inductive OpResult where
  | ok (v : Value)
  | err (e : OpError)
deriving DecidableEq, Repr, Inhabited

/-- The spec-local codes 0, 1 and 2 (60_exceptions.md R210, R211, section 7). -/
def OpResult.code : OpResult → Nat
  | .ok _ => 0
  | .err (.transportFault _) => 1
  | .err .integrityFault => 2

/-- An entry of the event log (10_state.md R32). -/
inductive Event where
  | csSet (level : CsLevel)
  | xfer (request : Frame) (out : XferOutcome)
  | result (r : OpResult)
deriving DecidableEq, Repr, Inhabited

/-- The machine's state. The first eleven fields are the block's and its observation (10_state.md R21 to R32,
70_reset_and_hazards.md R253); `running` and `out` are the arguments and the local of the running transaction
(43_transactions.md R161; log entry 9). The last four are the environment's inputs (log entries 1, 3, 7). -/
structure State where
  /-- `crc_reg` (10_state.md R21) -/
  crcReg : Nibble
  /-- `crc_phase` (10_state.md R22) -/
  crcPhase : CrcPhase
  /-- `f`, the frame buffer, absent between transactions (10_state.md R25) -/
  f : Option Frame
  /-- `rx_crc` (10_state.md R26) -/
  rxCrc : Option Nibble
  /-- `calc_crc` (10_state.md R26) -/
  calcCrc : Option Nibble
  /-- `cs`, the requested chip-select level (10_state.md R28) -/
  cs : CsLevel
  /-- `tx_step` (10_state.md R29) -/
  txStep : TxStep
  /-- the running transaction's `build` and `decode` (43_transactions.md R161) -/
  running : Option Transaction
  /-- the running transaction's `out` (43_transactions.md R161) -/
  out : Option XferOutcome
  /-- the event log (10_state.md R32) -/
  log : List Event
  /-- the list of results returned to the caller (70_reset_and_hazards.md R253) -/
  results : List OpResult
  /-- the caller's coming calls (10_state.md R20; log entry 1) -/
  calls : List Call
  /-- the transport's coming answers (10_state.md R27; log entry 3) -/
  answers : List Answer
  /-- how many transfers have returned: the index of the next free draw (log entry 3) -/
  draws : Nat
  /-- the chip-select driver's coming reports (00_scope.md R8; log entry 7) -/
  gpioReports : List GpioReport
deriving DecidableEq, Repr

/-- Why the machine stops with a fault. -/
inductive Fault where
  /-- Raised by `step` in a state whose transaction is at S4 and whose transfer never returns: "the model has no
  step out of that state" (43_transactions.md R166). Safe. -/
  | transferNeverReturns
  /-- Raised by `step` in a state whose running transaction lacks the data its next protocol step reads. No run
  reaches such a state (log entry 8). Safe. -/
  | protocolStateMissing
deriving DecidableEq, Repr, Inhabited

/-- Why the machine gives a call no meaning. -/
inductive Refusal where
  /-- Raised by `exec` for an operation without a meaning; no arm does. Safe. -/
  | notModelled (mnemonic : String)
  /-- Raised by CRC_UPDATE and CRC_FINISH outside a reset-opened computation (60_exceptions.md R213). Safe. -/
  | crcNotOpen
  /-- Raised by `step` for a call whose command is outside 0x0 to 0xF (60_exceptions.md R213). Safe. -/
  | commandOutOfRange
  /-- Raised by `step` for a call whose raw code names no register (60_exceptions.md R213). Safe. -/
  | notARegister
  /-- Raised by `step` for a call word that is no request frame (log entry 2). Safe. -/
  | notARequest (why : DecodeReject)
deriving DecidableEq, Repr, Inhabited

/-- The state just after construction, for the parameters the spec leaves open (70_reset_and_hazards.md R241):
`crc_powerup` and `cs_initial`. -/
def State.constructed (crcPowerup : Nibble) (csInitial : CsLevel) : State :=
  { crcReg := crcPowerup
    crcPhase := .unreset
    f := none
    rxCrc := none
    calcCrc := none
    cs := csInitial
    txStep := .idle
    running := none
    out := none
    log := []
    results := []
    calls := []
    answers := []
    draws := 0
    gpioReports := [] }

/-- The machine right after reset: construction with the values of `Config` (log entries 5, 6). -/
def State.reset : State := State.constructed Config.crcPowerup Config.csInitial

end Sys2Proof.Machine
end

