-- ==== Sys2Proof/Machine/Flags.lean ====
section
/-! DEFINITION. The block has no flags or condition codes (10_state.md R30): what an operation signals is its
outcome. This file holds the one check that decides between the outcomes, the comparison of CRC nibbles
(42_response_validator.md R140 to R142). -/

namespace Sys2Proof.Machine

/-- The comparison of S8: `calc_crc` against `rx_crc`, the validator's only check (42_response_validator.md R140,
R141). DEDUCED (log entry 19): the spec's decision D10. -/
def crcMatches (calculated rx : Nibble) : Bool := calculated == rx

/-- `valid(g)`: the response passes the validator (42_response_validator.md R142). -/
def frameValid (g : Frame) : Bool := crcMatches (crc4 g.zeroCrc.bytes) g.crcNibble

end Sys2Proof.Machine
end

