-- ==== Sys2Proof/Machine/Ops.lean ====
section
/-! DEFINITION. The named operations over the state: the CRC engine's three, CRC insertion, the chip-select line,
the transport, the end of an operation and the raising of an error, and the fetch of the next call. -/

namespace Sys2Proof.Machine

/-! ### The CRC engine (40_crc_engine.md R100 to R102) -/

/-- `crc.reset()` (40_crc_engine.md R100). -/
def engineReset (s : State) : State := { s with crcReg := Config.crcInit, crcPhase := .opened }

/-- `crc.update(bs)` on an open engine (40_crc_engine.md R101). -/
def engineUpdate (bs : List Byte) (s : State) : State := { s with crcReg := crcBytes s.crcReg bs }

/-- `crc.finish()` on an open engine; its value is `crcOutput` of the register (40_crc_engine.md R102). -/
def engineFinish (s : State) : State := { s with crcPhase := .closed }

/-- `crc.reset(); crc.update(bytes); crc.finish()`: the engine after a whole computation
(43_transactions.md R161, S2 and S7). -/
def engineRun (bs : List Byte) (s : State) : State := engineFinish (engineUpdate bs (engineReset s))

/-- `insert_crc(f)` (41_frame_constructor.md R122): the frame with its CRC nibble, and the engine after it. -/
def insertCrc (f : Frame) (s : State) : Frame × State :=
  let s' := engineRun f.bytes s
  (f.orCrc (crcOutput s'.crcReg), s')

/-! ### The end of an operation (60_exceptions.md R215, 00_scope.md R12) -/

/-- The operation returns `r` to the caller: one more entry of "the list of results"
(70_reset_and_hazards.md R253). -/
def deliver (r : OpResult) (s : State) : State := { s with results := s.results ++ [r] }

/-- An operation that holds the frame buffer ends with `r`: a running transaction logs its result
(43_transactions.md R164; log entry 10), the buffer and the transients are discarded and `tx_step` returns to
Idle (10_state.md R25, R26, R29). -/
def endOperation (r : OpResult) (s : State) : State :=
  deliver r
    { s with
      log := if s.running.isSome then s.log ++ [.result r] else s.log
      txStep := .idle
      running := none
      f := none
      out := none
      rxCrc := none
      calcCrc := none }

/-- `raise e` (60_exceptions.md R215): the operation ends at once, the error is its result, no state is saved, no
vector is taken and no mode changes. There is no return from an error (R216): the caller's next call starts from
Idle as any does. -/
def raise (e : OpError) (s : State) : State := endOperation (.err e) s

/-! ### The chip-select line and the transport (60_exceptions.md R221) -/

/-- `CsSet(level)` (00_scope.md R11, 43_transactions.md R163): the requested level is set and logged; the driver's
report, an error included, is discarded. DEDUCED (log entry 7). -/
def csSet (level : CsLevel) (s : State) : State :=
  { s with cs := level, log := s.log ++ [.csSet level], gpioReports := s.gpioReports.drop 1 }

/-- The environment's answer to the next transfer, whose request is `req` (10_state.md R27): the next of the
answers it was given, else a free draw (log entry 3). -/
def State.nextAnswer (s : State) (req : Frame) : Answer :=
  match s.answers with
  | a :: _ => a
  | [] => Config.transportDraw s.draws req

/-- `Transfer(f)` has returned `out` (43_transactions.md R161, S4): the exchange is logged, and a response
overwrites the request in place. -/
def transferReturned (req : Frame) (out : XferOutcome) (s : State) : State :=
  { s with
    log := s.log ++ [.xfer req out]
    f := match out with
      | .ok g => some g
      | .err _ => some req
    out := some out
    answers := s.answers.drop 1
    draws := s.draws + 1 }

/-! ### The validator's steps (42_response_validator.md R140) -/

/-- S6: `rx_crc` takes the response's CRC nibble, which is then zeroed in the buffer. -/
def extractCrc (g : Frame) (s : State) : State :=
  { s with rxCrc := some g.crcNibble, f := some g.zeroCrc }

/-- S7: the CRC over the buffer is computed again. -/
def recomputeCrc (g : Frame) (s : State) : State :=
  let s' := engineRun g.bytes s
  { s' with calcCrc := some (crcOutput s'.crcReg) }

/-- S8: raise IntegrityFault where the nibbles differ, else return the value. -/
def checkCrc (rx calculated : Nibble) (v : Value) (s : State) : State :=
  if crcMatches calculated rx then endOperation (.ok v) s else raise .integrityFault s

/-! ### The common transfer protocol (43_transactions.md R161) -/

/-- A transaction's `decode`, applied after S8 has passed (43_transactions.md R170 to R173). -/
def txDecode : Transaction → Frame → Value
  | .writeReg _ _ _, _ => .unit
  | .readReg _ _, g => .u16 (regValue g)
  | .readRegS16 _ _, g => .s16 (asS16 (regValue g))
  | .specialRead _, g => .pair (dualFirst g) (dualSecond g)

/-- The transaction `t` starts at S1, with no buffer yet (10_state.md R25, R29). -/
def beginTransaction (t : Transaction) (s : State) : State :=
  { s with txStep := .s1, running := some t, f := none, out := none, rxCrc := none, calcCrc := none }

/-- S1: the frame is laid out with its CRC nibble zero. -/
def txS1 (s : State) : State :=
  match s.running with
  | some t => { s with f := some t.layout, txStep := .s2 }
  | none => s

/-- S2: the CRC is computed and inserted. -/
def txS2 (s : State) : State :=
  match s.f with
  | some f =>
    let r := insertCrc f s
    { r.2 with f := some r.1, txStep := .s3 }
  | none => s

/-- S3: chip-select is asserted. -/
def txS3 (s : State) : State := { csSet .low s with txStep := .s4 }

/-- S4: one transfer. One that never returns leaves the transaction here (43_transactions.md R166). -/
def txS4 (s : State) : State :=
  match s.f with
  | some f =>
    match s.nextAnswer f with
    | .returns out => { transferReturned f out s with txStep := .s5 }
    | .neverReturns => s
  | none => s

/-- S5: chip-select is deasserted on both outcomes; a failed transfer then raises TransportFault. -/
def txS5 (s : State) : State :=
  match s.out with
  | some (.ok _) => { csSet .high s with out := none, txStep := .s6 }
  | some (.err e) => raise (.transportFault e) (csSet .high s)
  | none => s

/-- S6: the response's CRC nibble is extracted and zeroed. -/
def txS6 (s : State) : State :=
  match s.f with
  | some g => { extractCrc g s with txStep := .s7 }
  | none => s

/-- S7: the CRC is recomputed. -/
def txS7 (s : State) : State :=
  match s.f with
  | some g => { recomputeCrc g s with txStep := .s8 }
  | none => s

/-- S8: the comparison, then the decoded value or IntegrityFault. -/
def txS8 (s : State) : State :=
  match s.running, s.f, s.rxCrc, s.calcCrc with
  | some t, some g, some rx, some calculated => checkCrc rx calculated (txDecode t g) s
  | _, _, _, _ => s

/-- One protocol step, as `tx_step` says (10_state.md R29). A state that has no step stays as it is. -/
def txAdvance (s : State) : State :=
  match s.txStep with
  | .idle => s
  | .s1 => txS1 s
  | .s2 => txS2 s
  | .s3 => txS3 s
  | .s4 => txS4 s
  | .s5 => txS5 s
  | .s6 => txS6 s
  | .s7 => txS7 s
  | .s8 => txS8 s

/-- `n` protocol steps. -/
def txRun : Nat → State → State
  | 0, s => s
  | n + 1, s => txRun n (txAdvance s)

/-- A whole transaction, S1 to S8 (43_transactions.md R160, R161): atomic toward the caller (20_memory.md R47). It
ends at Idle, or at S4 where its transfer never returns. -/
def transaction (t : Transaction) (s : State) : State := txRun 8 (beginTransaction t s)

/-- Why a running transaction cannot take its next protocol step, if it cannot. -/
def txFault (s : State) : Option Fault :=
  match s.txStep with
  | .idle => none
  | .s1 => if s.running.isSome then none else some .protocolStateMissing
  | .s2 => if s.f.isSome then none else some .protocolStateMissing
  | .s3 => none
  | .s4 => match s.f with
    | some f => match s.nextAnswer f with
      | .returns _ => none
      | .neverReturns => some .transferNeverReturns
    | none => some .protocolStateMissing
  | .s5 => if s.out.isSome then none else some .protocolStateMissing
  | .s6 => if s.f.isSome then none else some .protocolStateMissing
  | .s7 => if s.f.isSome then none else some .protocolStateMissing
  | .s8 =>
    if s.running.isSome && s.f.isSome && s.rxCrc.isSome && s.calcCrc.isSome then none
    else some .protocolStateMissing

/-! ### The next call (20_memory.md R51, R53) -/

/-- What the block does next. -/
inductive Turn where
  /-- no transaction runs and the caller has made no call -/
  | rest
  /-- a transaction runs and takes its next protocol step -/
  | protocol
  /-- a transaction runs and has no next step -/
  | stuck (r : Fault)
  /-- the caller's call has no meaning -/
  | reject (r : Refusal)
  /-- the caller's call is the operation `i`, taken from the queue in `s` -/
  | call (i : Instr) (s : State)

/-- The refusal of a call (60_exceptions.md R213). -/
def refusalOf : CallReject → Refusal
  | .commandOutOfRange => .commandOutOfRange
  | .notARegister => .notARegister
  | .notARequest why => .notARequest why

/-- The block's next turn: a running transaction goes on (43_transactions.md R160); else the caller's next call,
in call order (20_memory.md R51). -/
def State.turn (s : State) : Turn :=
  match s.txStep with
  | .idle =>
    match s.calls with
    | [] => .rest
    | c :: rest =>
      match c.resolve with
      | .error e => .reject (refusalOf e)
      | .ok i => .call i { s with calls := rest }
  | _ =>
    match txFault s with
    | some r => .stuck r
    | none => .protocol

/-- `s` at rest, with the call `c` before the caller's other calls. -/
def State.withCall (s : State) (c : Call) : State :=
  { s with
    calls := c :: s.calls
    txStep := .idle
    running := none
    f := none
    out := none
    rxCrc := none
    calcCrc := none }

end Sys2Proof.Machine
end

