-- ==== Sys2Proof/Machine/AddressDecoder.lean ====
section
/-! DEFINITION. The meanings of the address decoder's operations (44_register_address_decoder.md R192, R193). -/

namespace Sys2Proof.Machine

/-- ADDR_ENCODE (44_register_address_decoder.md R192). -/
def execAddrEncode (r : Register) (s : State) : Host.Outcome State Fault Refusal :=
  .next (deliver (.ok (.u7 (addrCode r))) s)

/-- ADDR_DECODE (44_register_address_decoder.md R193): "None" is a result. -/
def execAddrDecode (code : Addr7) (s : State) : Host.Outcome State Fault Refusal :=
  .next (deliver (.ok (.register (addrDecode code))) s)

end Sys2Proof.Machine
end

