-- ==== Sys2Proof/Machine/CrcEngine.lean ====
section
/-! DEFINITION. The meanings of the CRC engine's operations (40_crc_engine.md R100 to R102). -/

namespace Sys2Proof.Machine

/-- CRC_RESET (40_crc_engine.md R100): legal in every phase. -/
def execCrcReset (s : State) : Host.Outcome State Fault Refusal :=
  .next (deliver (.ok .unit) (engineReset s))

/-- CRC_UPDATE (40_crc_engine.md R101): refused unless the engine is open. -/
def execCrcUpdate (bs : List Byte) (s : State) : Host.Outcome State Fault Refusal :=
  if s.crcPhase = .opened then .next (deliver (.ok .unit) (engineUpdate bs s)) else .refused .crcNotOpen

/-- CRC_FINISH (40_crc_engine.md R102): refused unless the engine is open. -/
def execCrcFinish (s : State) : Host.Outcome State Fault Refusal :=
  if s.crcPhase = .opened then .next (deliver (.ok (.u4 (crcOutput s.crcReg))) (engineFinish s))
  else .refused .crcNotOpen

end Sys2Proof.Machine
end

