-- ==== Sys2Proof/Machine/FrameConstructor.lean ====
section
/-! DEFINITION. The meanings of the frame constructor's operations (41_frame_constructor.md R124 to R126). -/

namespace Sys2Proof.Machine

/-- The frame `f` is completed by `insert_crc` and returned (41_frame_constructor.md R122). -/
def buildFrame (f : Frame) (s : State) : State :=
  let r := insertCrc f s
  deliver (.ok (.frame r.1)) r.2

/-- FRAME_WRITE (41_frame_constructor.md R124). -/
def execFrameWrite (r : Register) (v : Half) (c : Nibble) (s : State) : Host.Outcome State Fault Refusal :=
  .next (buildFrame (layoutWrite r v c) s)

/-- FRAME_READ (41_frame_constructor.md R125). -/
def execFrameRead (r : Register) (c : Nibble) (s : State) : Host.Outcome State Fault Refusal :=
  .next (buildFrame (layoutRead r c) s)

/-- FRAME_SPECIAL (41_frame_constructor.md R126). -/
def execFrameSpecial (c : Nibble) (s : State) : Host.Outcome State Fault Refusal :=
  .next (buildFrame (layoutSpecial c) s)

end Sys2Proof.Machine
end

