-- ==== Sys2Proof/Machine/Transactions.lean ====
section
/-! DEFINITION. The meanings of the four transactions (43_transactions.md R170 to R173). Each runs the protocol of
R161; TransportFault and IntegrityFault are its results, and the machine goes on. -/

namespace Sys2Proof.Machine

/-- WRITE_REG (43_transactions.md R170). -/
def execWriteReg (r : Register) (v : Half) (c : Nibble) (s : State) : Host.Outcome State Fault Refusal :=
  .next (transaction (.writeReg r v c) s)

/-- READ_REG (43_transactions.md R171). -/
def execReadReg (r : Register) (c : Nibble) (s : State) : Host.Outcome State Fault Refusal :=
  .next (transaction (.readReg r c) s)

/-- READ_REG_S16 (43_transactions.md R172). -/
def execReadRegS16 (r : Register) (c : Nibble) (s : State) : Host.Outcome State Fault Refusal :=
  .next (transaction (.readRegS16 r c) s)

/-- SPECIAL_READ (43_transactions.md R173). -/
def execSpecialRead (c : Nibble) (s : State) : Host.Outcome State Fault Refusal :=
  .next (transaction (.specialRead c) s)

end Sys2Proof.Machine
end

