-- ==== Sys2Proof/Machine/Validator.lean ====
section
/-! DEFINITION. The meanings of the response validator's operations (42_response_validator.md R140, R144, R145,
R147). -/

namespace Sys2Proof.Machine

/-- VALIDATE (42_response_validator.md R140): steps S6 to S8 on the operand. The buffer and the two transients
exist only while it runs. DEDUCED (log entry 13). -/
def execValidate (g : Frame) (s : State) : Host.Outcome State Fault Refusal :=
  let s' := recomputeCrc g.zeroCrc (extractCrc g s)
  .next (checkCrc g.crcNibble (crcOutput s'.crcReg) (.frame g.zeroCrc) s')

/-- DECODE_REG (42_response_validator.md R144): pure field extraction. -/
def execDecodeReg (g : Frame) (s : State) : Host.Outcome State Fault Refusal :=
  .next (deliver (.ok (.u16 (regValue g))) s)

/-- DECODE_REG_S16 (42_response_validator.md R145). -/
def execDecodeRegS16 (g : Frame) (s : State) : Host.Outcome State Fault Refusal :=
  .next (deliver (.ok (.s16 (asS16 (regValue g)))) s)

/-- DECODE_DUAL (42_response_validator.md R147). -/
def execDecodeDual (g : Frame) (s : State) : Host.Outcome State Fault Refusal :=
  .next (deliver (.ok (.pair (dualFirst g) (dualSecond g))) s)

end Sys2Proof.Machine
end

