-- ==== Sys2Proof/Machine/Dispatch.lean ====
section
/-! DEFINITION. One arm per operation (30_encoding.md R71), each one call of its meaning. -/

namespace Sys2Proof.Machine

/-- The meaning of an operation. -/
def exec (i : Instr) (s : State) : Host.Outcome State Fault Refusal :=
  match i with
  | .crcReset => Sys2Proof.Machine.execCrcReset s
  | .crcUpdate bs => Sys2Proof.Machine.execCrcUpdate bs s
  | .crcFinish => Sys2Proof.Machine.execCrcFinish s
  | .frameWrite r v c => Sys2Proof.Machine.execFrameWrite r v c s
  | .frameRead r c => Sys2Proof.Machine.execFrameRead r c s
  | .frameSpecial c => Sys2Proof.Machine.execFrameSpecial c s
  | .validate g => Sys2Proof.Machine.execValidate g s
  | .decodeReg g => Sys2Proof.Machine.execDecodeReg g s
  | .decodeRegS16 g => Sys2Proof.Machine.execDecodeRegS16 g s
  | .decodeDual g => Sys2Proof.Machine.execDecodeDual g s
  | .writeReg r v c => Sys2Proof.Machine.execWriteReg r v c s
  | .readReg r c => Sys2Proof.Machine.execReadReg r c s
  | .readRegS16 r c => Sys2Proof.Machine.execReadRegS16 r c s
  | .specialRead c => Sys2Proof.Machine.execSpecialRead c s
  | .addrEncode r => Sys2Proof.Machine.execAddrEncode r s
  | .addrDecode code => Sys2Proof.Machine.execAddrDecode code s

end Sys2Proof.Machine
end

