-- ==== Sys2Proof/Machine/Step.lean ====
section
/-! DEFINITION. One step of the machine: the caller's next call runs whole (92_eei_decisions.md D1), or a running
transaction takes its next protocol step. -/

namespace Sys2Proof.Machine

/-- One step. With no call to run the block rests as it is (60_exceptions.md R218; log entry 1). -/
def step (s : State) : Host.Outcome State Fault Refusal :=
  match s.turn with
  | .rest => .next s
  | .protocol => .next (txAdvance s)
  | .stuck r => .fault r
  | .reject r => .refused r
  | .call i s' => exec i s'

/-- `s` with a word of spec/opcode_table.json as the caller's next call (log entries 1, 2). -/
def State.withFetchWord (s : State) (nbits w : Nat) : State := s.withCall (.word (tableBytes nbits w))

end Sys2Proof.Machine
end

