-- ==== Sys2Proof/Safety.lean ====
section
/-! DEFINITION. The vocabulary of the claims: the spec's own expressions for requests, responses and the state after
a transaction, and what a sound state is. -/

namespace Sys2Proof.Machine

/-! ### Frames as the spec writes them -/

/-- A request with its CRC nibble: `k = CRC4([f[0], f[1], f[2], c << 4])`, `f[3] = (c << 4) | k`
(41_frame_constructor.md R123). -/
def sealedFrame (b0 b1 b2 : Byte) (c : Nibble) : Frame :=
  ⟨b0, b1, b2, c ++ crc4 [b0, b1, b2, c ++ 0x0#4]⟩

/-- The write request `0aaaaaaa dddddddd dddddddd cccckkkk` (30_encoding.md R66). -/
def writeRequest (r : Register) (v : Half) (c : Nibble) : Frame :=
  sealedFrame (0#1 ++ addrCode r) (v.extractLsb' 8 8) (v.extractLsb' 0 8) c

/-- The read request `1aaaaaaa 00000000 00000000 cccckkkk` (30_encoding.md R66). -/
def readRequest (r : Register) (c : Nibble) : Frame := sealedFrame (1#1 ++ addrCode r) 0x00#8 0x00#8 c

/-- The special request `10000000 00000000 00000000 cccckkkk` (30_encoding.md R66). -/
def specialRequest (c : Nibble) : Frame := sealedFrame 0x80#8 0x00#8 0x00#8 c

/-- The CRC recomputed over a response, `CRC4([g[0], g[1], g[2], g[3] & 0xF0])` (42_response_validator.md R142). -/
def responseCrc (g : Frame) : Nibble := crc4 [g.b0, g.b1, g.b2, g.b3 &&& 0xF0#8]

/-- `g[3] & 0x0F` as a nibble (42_response_validator.md R142). -/
def embeddedCrc (g : Frame) : Nibble := g.b3.extractLsb' 0 4

/-- The frame with bit `j` of `W` flipped (40_crc_engine.md R108). -/
def flipBit (j : Nat) (g : Frame) : Frame := Frame.ofWord (g.word ^^^ (1#32 <<< j))

/-! ### The CRC as the spec writes it -/

/-- One step of the division in the spec's words: the feedback is the input bit XOR the top bit, the register shifts
left, and on feedback 0x3 is XORed in (40_crc_engine.md R103). -/
def divisionStep (reg : Nibble) (bit : Bool) : Nibble :=
  (reg <<< 1) ^^^ (if bit != reg.getLsbD 3 then 0x3#4 else 0x0#4)

/-- The division over bytes, `b[7]` down to `b[0]` of each (40_crc_engine.md R101). -/
def divideBytes (reg : Nibble) (bs : List Byte) : Nibble :=
  bs.foldl (fun reg b => [7, 6, 5, 4, 3, 2, 1, 0].foldl (fun reg i => divisionStep reg (b.getLsbD i)) reg) reg

/-- The table `T` (40_crc_engine.md R106). -/
def nibbleTable : List Nibble :=
  [0x0#4, 0x3#4, 0x6#4, 0x5#4, 0xC#4, 0xF#4, 0xA#4, 0x9#4, 0xB#4, 0x8#4, 0xD#4, 0xE#4, 0x7#4, 0x4#4, 0x1#4, 0x2#4]

/-- `T[i]`. -/
def tableAt (i : Nibble) : Nibble := nibbleTable.getD i.toNat 0x0#4

/-- A bit sequence as a polynomial over GF(2), the first bit the highest coefficient (40_crc_engine.md R105). -/
noncomputable def bitsPoly (bits : List Bool) : Polynomial (ZMod 2) :=
  bits.foldl (fun p b => p * Polynomial.X + Polynomial.C (if b then 1 else 0)) 0

/-- The bits of a `w`-bit value, the most significant first. -/
def bitsOf {w : Nat} (v : BitVec w) : List Bool := (List.range w).map fun i => v.getMsbD i

/-! ### The register table as the spec writes it -/

/-- The name and address columns (44_register_address_decoder.md R190). -/
def registerTable : List (Register × Nat) :=
  [(.deviceConfig, 0x00), (.sensorConfig, 0x01), (.systemConfig, 0x02), (.alertConfig, 0x03),
   (.xThrxConfig, 0x04), (.yThrxConfig, 0x05), (.zThrxConfig, 0x06), (.tThrxConfig, 0x07),
   (.convStatus, 0x08), (.xChResult, 0x09), (.yChResult, 0x0A), (.zChResult, 0x0B),
   (.tempResult, 0x0C), (.afeStatus, 0x0D), (.sysStatus, 0x0E), (.testConfig, 0x0F),
   (.oscMonitor, 0x10), (.magGainConfig, 0x11), (.angleResult, 0x13), (.magnitudeResult, 0x14)]

/-! ### The state after a transaction (43_transactions.md R161, R164, R168) -/

/-- The state after a transaction that sent `req`, got `out` and returned `r`, the CRC register holding `k`. -/
def returned (s : State) (req : Frame) (out : XferOutcome) (k : Nibble) (r : OpResult) : State :=
  { s with
    crcReg := k
    crcPhase := .closed
    f := none
    rxCrc := none
    calcCrc := none
    cs := .high
    txStep := .idle
    running := none
    out := none
    log := s.log ++ [.csSet .low, .xfer req out, .csSet .high, .result r]
    results := s.results ++ [r]
    answers := s.answers.drop 1
    draws := s.draws + 1
    gpioReports := s.gpioReports.drop 2 }

/-- The state of a transaction whose transfer never returns: at S4 with chip-select Low (43_transactions.md R166). -/
def hung (s : State) (t : Transaction) (req : Frame) : State :=
  { s with
    crcReg := embeddedCrc req
    crcPhase := .closed
    f := some req
    rxCrc := none
    calcCrc := none
    cs := .low
    txStep := .s4
    running := some t
    out := none
    log := s.log ++ [.csSet .low]
    gpioReports := s.gpioReports.drop 1 }

/-- The state after the transaction `t` with request `req` and decode function `dec`, for each answer of the
transport: TransportFault with the request's CRC left in the register and no check made (43_transactions.md R165,
R168), IntegrityFault where the nibbles differ, else the decoded value. -/
def afterTransaction (s : State) (t : Transaction) (req : Frame) (dec : Frame → Value) : State :=
  match s.nextAnswer req with
  | .neverReturns => hung s t req
  | .returns (.err e) => returned s req (.err e) (embeddedCrc req) (.err (.transportFault e))
  | .returns (.ok g) =>
    returned s req (.ok g) (responseCrc g)
      (if responseCrc g = embeddedCrc g then .ok (dec g) else .err .integrityFault)

/-- The request a transaction builds and completes (43_transactions.md R170 to R173). -/
def requestOf : Transaction → Frame
  | .writeReg r v c => writeRequest r v c
  | .readReg r c => readRequest r c
  | .readRegS16 r c => readRequest r c
  | .specialRead c => specialRequest c

/-- The value a transaction decodes from a response that passed (43_transactions.md R170 to R173). -/
def decodedBy : Transaction → Frame → Value
  | .writeReg _ _ _, _ => .unit
  | .readReg _ _, g => .u16 (BitVec.ofNat 16 (256 * g.b1.toNat + g.b2.toNat))
  | .readRegS16 _ _, g => .s16 (BitVec.ofNat 16 (256 * g.b1.toNat + g.b2.toNat)).toInt
  | .specialRead _, g =>
    .pair (BitVec.ofNat 16 (16 * g.b1.toNat + g.b2.toNat % 16)) (BitVec.ofNat 16 (16 * g.b0.toNat + g.b2.toNat / 16))

/-! ### Another reading of the transport's errors (00_scope.md R8, 60_exceptions.md R210) -/

/-- The outcome with its error replaced. -/
def mapXferOutcome (φ : TransportError → TransportError) : XferOutcome → XferOutcome
  | .ok g => .ok g
  | .err e => .err (φ e)

/-- The answer with its error replaced. -/
def mapAnswer (φ : TransportError → TransportError) : Answer → Answer
  | .returns out => .returns (mapXferOutcome φ out)
  | .neverReturns => .neverReturns

/-- The result with its error replaced. -/
def mapResult (φ : TransportError → TransportError) : OpResult → OpResult
  | .ok v => .ok v
  | .err (.transportFault e) => .err (.transportFault (φ e))
  | .err .integrityFault => .err .integrityFault

/-- The event with its error replaced. -/
def mapEvent (φ : TransportError → TransportError) : Event → Event
  | .csSet level => .csSet level
  | .xfer req out => .xfer req (mapXferOutcome φ out)
  | .result r => .result (mapResult φ r)

/-- The state with every error in it, the coming ones included, replaced. -/
def State.mapErrors (φ : TransportError → TransportError) (s : State) : State :=
  { s with
    out := s.out.map (mapXferOutcome φ)
    log := s.log.map (mapEvent φ)
    results := s.results.map (mapResult φ)
    answers := s.answers.map (mapAnswer φ) }

/-! ### Sound states -/

/-- No transaction runs: the state between operations (10_state.md R25, R26, R29). -/
def AtRest (s : State) : Prop :=
  s.txStep = .idle ∧ s.running = none ∧ s.f = none ∧ s.out = none ∧ s.rxCrc = none ∧ s.calcCrc = none

/-- The chip-select level before each protocol step: Low from S3 to S5 (10_state.md R28, 43_transactions.md R161). -/
def TxStep.csLevel : TxStep → CsLevel
  | .s4 => .low
  | .s5 => .low
  | _ => .high

/-- When the frame buffer exists (10_state.md R25). -/
def TxStep.hasFrame : TxStep → Bool
  | .idle => false
  | .s1 => false
  | _ => true

/-- When `rx_crc` exists (10_state.md R26). -/
def TxStep.hasRxCrc : TxStep → Bool
  | .s7 => true
  | .s8 => true
  | _ => false

/-- When `calc_crc` exists (10_state.md R26). -/
def TxStep.hasCalcCrc : TxStep → Bool
  | .s8 => true
  | _ => false

/-- When a transaction runs (10_state.md R29). -/
def TxStep.isRunning : TxStep → Bool
  | .idle => false
  | _ => true

/-- When the transfer's outcome waits for S5 (43_transactions.md R161). -/
def TxStep.hasOutcome : TxStep → Bool
  | .s5 => true
  | _ => false

/-- When the CRC engine is known to be Closed: from S2 on (43_transactions.md R168). -/
def TxStep.crcClosed : TxStep → Bool
  | .idle => false
  | .s1 => false
  | .s2 => false
  | _ => true

/-- The invariant of the block's state: each piece of transaction state exists exactly when the spec says, and
chip-select is Low exactly around the transfer. -/
structure Inv (s : State) : Prop where
  running : s.running.isSome = s.txStep.isRunning
  frame : s.f.isSome = s.txStep.hasFrame
  out : s.out.isSome = s.txStep.hasOutcome
  rx : s.rxCrc.isSome = s.txStep.hasRxCrc
  calculated : s.calcCrc.isSome = s.txStep.hasCalcCrc
  chipSelect : s.cs = s.txStep.csLevel
  engine : s.txStep.crcClosed = true → s.crcPhase = .closed

/-- Where a log stands in the group `CsSet(Low), Xfer, CsSet(High), Result` (43_transactions.md R164). -/
inductive LogPhase where
  | between
  | asserted
  | transferred
  | deasserted
deriving DecidableEq, Repr

/-- One event moves the log on, or breaks the bracketing. -/
def LogPhase.next (p : Option LogPhase) (e : Event) : Option LogPhase :=
  match p, e with
  | some .between, .csSet .low => some .asserted
  | some .asserted, .xfer _ _ => some .transferred
  | some .transferred, .csSet .high => some .deasserted
  | some .deasserted, .result _ => some .between
  | _, _ => none

/-- The phase a log ends in; none where it is no sequence of such groups. -/
def logPhase (log : List Event) : Option LogPhase := log.foldl LogPhase.next (some .between)

/-- The phase of the log before each protocol step. -/
def TxStep.logPhase : TxStep → LogPhase
  | .s4 => .asserted
  | .s5 => .transferred
  | .s6 => .deasserted
  | .s7 => .deasserted
  | .s8 => .deasserted
  | _ => .between

/-- The log is a sequence of whole groups, and the part of one that the running transaction has made: chip-select
goes low, then high, exactly once per call, around exactly one transfer (43_transactions.md R162, R164, R165). -/
def LogBracketed (s : State) : Prop := logPhase s.log = some s.txStep.logPhase

/-- Every request in the log is one the block may emit (30_encoding.md R74): the encoding of a transaction. -/
def LogRequestsEncoded (s : State) : Prop :=
  ∀ req out, Event.xfer req out ∈ s.log → ∃ t : Transaction, encode t.instr = some req

/-- The buffer holds the running transaction's own request: its layout before S2, its encoding before S3 and S4. -/
def BufferHoldsRequest (s : State) : Prop :=
  (s.txStep = .s2 → ∃ t : Transaction, s.running = some t ∧ s.f = some t.layout) ∧
  (s.txStep = .s3 ∨ s.txStep = .s4 → ∃ t : Transaction, s.running = some t ∧ s.f = encode t.instr)

/-- One more protocol step is taken, or the transaction ends: from S5 or from S8 (10_state.md R29,
43_transactions.md R161). -/
def TxStep.follows : TxStep → TxStep → Bool
  | .s1, .s2 => true
  | .s2, .s3 => true
  | .s3, .s4 => true
  | .s4, .s5 => true
  | .s5, .s6 => true
  | .s5, .idle => true
  | .s6, .s7 => true
  | .s7, .s8 => true
  | .s8, .idle => true
  | _, _ => false

end Sys2Proof.Machine
end

