-- ==== Sys2Proof/Certificates/Slice0/Obligations.lean ====
section
/-! DEFINITION. The statements for the provers. -/

open Sys2Proof Sys2Proof.Machine

/-! ### Construction and the CRC engine -/

/-- 70_reset_and_hazards.md R241, for every `crc_powerup` and `cs_initial`; `State.reset` is one such state, its two
parameters the model's choice (log entries 5, 6). -/
def Obligations.ConstructionLeavesBlockIdle : Prop :=
  (∀ k l, AtRest (State.constructed k l) ∧ (State.constructed k l).crcReg = k ∧
    (State.constructed k l).crcPhase = .unreset ∧ (State.constructed k l).cs = l ∧
    (State.constructed k l).log = [] ∧ (State.constructed k l).results = []) ∧
  ∃ k, State.reset = State.constructed k .high

/-- 40_crc_engine.md R100: in every state, and nothing else changes. -/
def Obligations.CrcResetOpensComputation : Prop :=
  ∀ s : State, exec .crcReset s =
    .next { s with crcReg := 0xF#4, crcPhase := .opened, results := s.results ++ [.ok .unit] }

/-- 40_crc_engine.md R101 with R103: the division bit by bit where the engine is Open, else a refusal. -/
def Obligations.CrcUpdateDividesBitsWhenOpen : Prop :=
  ∀ (bs : List Byte) (s : State),
    (s.crcPhase = .opened → exec (.crcUpdate bs) s =
      .next { s with crcReg := divideBytes s.crcReg bs, results := s.results ++ [.ok .unit] }) ∧
    (s.crcPhase ≠ .opened → exec (.crcUpdate bs) s = .refused .crcNotOpen)

/-- 40_crc_engine.md R102: the register is returned as it stands and the phase becomes Closed, else a refusal. -/
def Obligations.CrcFinishReturnsRemainderWhenOpen : Prop :=
  ∀ s : State,
    (s.crcPhase = .opened → exec .crcFinish s =
      .next { s with crcPhase := .closed, results := s.results ++ [.ok (.u4 s.crcReg)] }) ∧
    (s.crcPhase ≠ .opened → exec .crcFinish s = .refused .crcNotOpen)

/-- 40_crc_engine.md R104: CRC4 is what reset, update and finish return, from every state. -/
def Obligations.ResetUpdateFinishComputesCrc4 : Prop :=
  ∀ (bs : List Byte) (s : State), ∃ s1 s2 s3,
    exec .crcReset s = .next s1 ∧ exec (.crcUpdate bs) s1 = .next s2 ∧ exec .crcFinish s2 = .next s3 ∧
    s3 = { s with
      crcReg := crc4 bs, crcPhase := .closed
      results := s.results ++ [.ok .unit, .ok .unit, .ok (.u4 (crc4 bs))] } ∧
    crc4 bs = divideBytes 0xF#4 bs

/-- 40_crc_engine.md R106: the nibble table computes the same function. -/
def Obligations.Crc4ByNibbleTable : Prop :=
  ∀ bs : List Byte, crc4 bs =
    bs.foldl (fun reg b => tableAt (tableAt (reg ^^^ b.extractLsb' 4 4) ^^^ b.extractLsb' 0 4)) 0xF#4

/-- 40_crc_engine.md R105: CRC4 is the remainder modulo x^4 + x + 1 over GF(2). That reading of the parameter 0x3 is
the spec's general knowledge, its K2 (log entry 14). -/
def Obligations.Crc4IsPolynomialRemainder : Prop :=
  ∀ bs : List Byte, bitsPoly (bitsOf (crc4 bs)) =
    (bitsPoly (bitsOf 0xF#4) * Polynomial.X ^ (8 * bs.length)
      + bitsPoly (bs.flatMap bitsOf) * Polynomial.X ^ 4)
      %ₘ (Polynomial.X ^ 4 + Polynomial.X + 1)

/-- 40_crc_engine.md R107: splitting a sequence across updates changes nothing but the number of results. -/
def Obligations.CrcUpdatesCompose : Prop :=
  ∀ (a b : List Byte) (s : State), s.crcPhase = .opened → ∃ s1 s2 s3,
    exec (.crcUpdate a) s = .next s1 ∧ exec (.crcUpdate b) s1 = .next s2 ∧
    exec (.crcUpdate (a ++ b)) s = .next s3 ∧ s2 = { s3 with results := s3.results ++ [.ok .unit] }

/-- 40_crc_engine.md R108: CRC4 is affine over XOR for sequences of one length. -/
def Obligations.Crc4IsAffine : Prop :=
  ∀ a b : List Byte, a.length = b.length →
    crc4 (List.zipWith (· ^^^ ·) a b) = crc4 a ^^^ crc4 b ^^^ crc4 (List.replicate a.length 0x00#8)

/-- 40_crc_engine.md R108, 42_response_validator.md R143: no single-bit change of the first 28 bits passes. -/
def Obligations.SingleBitErrorsAreDetected : Prop :=
  ∀ (g : Frame) (j : Nat), 4 ≤ j → j < 32 → responseCrc g = embeddedCrc g →
    responseCrc (flipBit j g) ≠ embeddedCrc (flipBit j g)

/-- 40_crc_engine.md R108, 42_response_validator.md R143: a two-bit change of the first 28 bits, 15 apart, passes
where the original does. -/
def Obligations.TwoBitErrorsFifteenApartPass : Prop :=
  ∀ (g : Frame) (i j : Nat), 4 ≤ i → j < 32 → j = i + 15 →
    (responseCrc (flipBit j (flipBit i g)) = embeddedCrc (flipBit j (flipBit i g)) ↔ responseCrc g = embeddedCrc g)

/-- 42_response_validator.md R142: of the 16 nibbles for the first 28 bits VALIDATE passes exactly one, the CRC of those
bits with the nibble zero, and answers every other with IntegrityFault and no frame. The CRC's bit-serial form is the
spec's general knowledge (log entry 14); that nothing else is checked is its decision D10 (log entry 19). -/
def Obligations.ExactlyOneNibblePasses : Prop :=
  ∀ (b0 b1 b2 : Byte) (c : Nibble), ∃ k : Nibble, k = divideBytes 0xF#4 [b0, b1, b2, c ++ 0x0#4] ∧
    ∀ (j : Nibble) (s : State), ∃ s', exec (.validate ⟨b0, b1, b2, c ++ j⟩) s = .next s' ∧
      s'.results = s.results ++
        [if j = k then .ok (.frame ⟨b0, b1, b2, c ++ 0x0#4⟩) else .err .integrityFault]

/-! ### The frame constructor -/

/-- 41_frame_constructor.md R124: the frame returned, the engine after it, and nothing else changed. -/
def Obligations.FrameWriteBuildsWriteRequest : Prop :=
  ∀ (r : Register) (v : Half) (c : Nibble) (s : State),
    exec (.frameWrite r v c) s = .next { s with
      crcReg := embeddedCrc (writeRequest r v c), crcPhase := .closed
      results := s.results ++ [.ok (.frame (writeRequest r v c))] } ∧
    (writeRequest r v c).b0.toNat = (addrCode r).toNat ∧
    (writeRequest r v c).b1.toNat = v.toNat / 256 ∧ (writeRequest r v c).b2.toNat = v.toNat % 256 ∧
    (writeRequest r v c).b3.toNat = 16 * c.toNat + (embeddedCrc (writeRequest r v c)).toNat ∧
    embeddedCrc (writeRequest r v c) = responseCrc (writeRequest r v c)

/-- 41_frame_constructor.md R125: the frame returned, the engine after it, and nothing else changed. -/
def Obligations.FrameReadBuildsReadRequest : Prop :=
  ∀ (r : Register) (c : Nibble) (s : State),
    exec (.frameRead r c) s = .next { s with
      crcReg := embeddedCrc (readRequest r c), crcPhase := .closed
      results := s.results ++ [.ok (.frame (readRequest r c))] } ∧
    (readRequest r c).b0.toNat = 128 + (addrCode r).toNat ∧
    (readRequest r c).b1 = 0x00#8 ∧ (readRequest r c).b2 = 0x00#8 ∧
    (readRequest r c).b3.toNat = 16 * c.toNat + (embeddedCrc (readRequest r c)).toNat ∧
    embeddedCrc (readRequest r c) = responseCrc (readRequest r c)

/-- 41_frame_constructor.md R126: the frame returned, the engine after it, and nothing else changed. -/
def Obligations.FrameSpecialBuildsSpecialRequest : Prop :=
  ∀ (c : Nibble) (s : State),
    exec (.frameSpecial c) s = .next { s with
      crcReg := embeddedCrc (specialRequest c), crcPhase := .closed
      results := s.results ++ [.ok (.frame (specialRequest c))] } ∧
    specialRequest c = readRequest .deviceConfig c ∧
    (specialRequest c).b0 = 0x80#8 ∧ (specialRequest c).b1 = 0x00#8 ∧ (specialRequest c).b2 = 0x00#8 ∧
    (List.range 16).map (fun n => (specialRequest (BitVec.ofNat 4 n)).b3) =
      [0x0F#8, 0x1A#8, 0x25#8, 0x30#8, 0x48#8, 0x5D#8, 0x62#8, 0x77#8,
       0x81#8, 0x94#8, 0xAB#8, 0xBE#8, 0xC6#8, 0xD3#8, 0xEC#8, 0xF9#8]

/-- 70_reset_and_hazards.md R246: the two reads put the same frame on the wire and differ in the decoding alone. -/
def Obligations.SpecialReadAliasesDeviceConfigRead : Prop :=
  ∀ (c : Nibble) (s : State) (g : Frame),
    exec (.frameSpecial c) s = exec (.frameRead .deviceConfig c) s ∧
    (s.nextAnswer (specialRequest c) = .returns (.ok g) → responseCrc g = embeddedCrc g → ∃ s1 s2 first second value,
      exec (.specialRead c) s = .next s1 ∧ exec (.readReg .deviceConfig c) s = .next s2 ∧
      s1.log = s.log ++ [.csSet .low, .xfer (specialRequest c) (.ok g), .csSet .high, .result (.ok (.pair first second))] ∧
      s2.log = s.log ++ [.csSet .low, .xfer (specialRequest c) (.ok g), .csSet .high, .result (.ok (.u16 value))])

/-- 41_frame_constructor.md R127: a frame the block builds passes the validator, which returns it with its CRC
nibble zeroed. -/
def Obligations.BuiltFramesPassValidation : Prop :=
  ∀ (i : Instr) (s s' : State), i.opcode ∈ [Opcode.frameWrite, .frameRead, .frameSpecial] → AtRest s →
    exec i s = .next s' → ∃ g s'', s'.results = s.results ++ [.ok (.frame g)] ∧
      exec (.validate g) s' = .next s'' ∧
      s''.results = s'.results ++ [.ok (.frame { g with b3 := g.b3 &&& 0xF0#8 })]

/-! ### The response validator -/

/-- 42_response_validator.md R140, R142: the whole effect of VALIDATE between operations. -/
def Obligations.ValidateComparesEmbeddedCrc : Prop :=
  ∀ (g : Frame) (s : State), AtRest s → exec (.validate g) s = .next { s with
    crcReg := responseCrc g, crcPhase := .closed
    results := s.results ++ [if responseCrc g = embeddedCrc g then .ok (.frame { g with b3 := g.b3 &&& 0xF0#8 })
      else .err .integrityFault] }

/-- 42_response_validator.md R144: the value is `256 * g[1] + g[2]`, and nothing but the results changes. -/
def Obligations.DecodeRegIsBigEndian : Prop :=
  ∀ (g : Frame) (s : State), ∃ v : Half, v.toNat = 256 * g.b1.toNat + g.b2.toNat ∧
    exec (.decodeReg g) s = .next { s with results := s.results ++ [.ok (.u16 v)] }

/-- 42_response_validator.md R145: the same 16 bits read as two's complement. -/
def Obligations.DecodeRegS16IsTwosComplement : Prop :=
  ∀ (g : Frame) (s : State), exec (.decodeRegS16 g) s = .next { s with
    results := s.results ++ [.ok (.s16 (if 256 * g.b1.toNat + g.b2.toNat < 0x8000
      then 256 * (g.b1.toNat : Int) + g.b2.toNat else 256 * (g.b1.toNat : Int) + g.b2.toNat - 0x10000))] }

/-- 42_response_validator.md R147: two 12-bit values, in the order (first, second). -/
def Obligations.DecodeDualUnpacksTwelveBitPair : Prop :=
  ∀ (g : Frame) (s : State), ∃ first second : Half,
    first.toNat = 16 * g.b1.toNat + g.b2.toNat % 16 ∧ second.toNat = 16 * g.b0.toNat + g.b2.toNat / 16 ∧
    first.toNat ≤ 0xFFF ∧ second.toNat ≤ 0xFFF ∧
    exec (.decodeDual g) s = .next { s with results := s.results ++ [.ok (.pair first second)] }

/-! ### Transactions -/

/-- 43_transactions.md R170, R161, R164, R166, R168: the whole next state, for every answer of the transport. -/
def Obligations.WriteRegRunsProtocol : Prop :=
  ∀ (r : Register) (v : Half) (c : Nibble) (s : State), exec (.writeReg r v c) s =
    .next (afterTransaction s (.writeReg r v c) (writeRequest r v c) fun _ => .unit)

/-- 43_transactions.md R171: the whole next state, for every answer of the transport. -/
def Obligations.ReadRegRunsProtocol : Prop :=
  ∀ (r : Register) (c : Nibble) (s : State), exec (.readReg r c) s =
    .next (afterTransaction s (.readReg r c) (readRequest r c)
      fun g => .u16 (BitVec.ofNat 16 (256 * g.b1.toNat + g.b2.toNat)))

/-- 43_transactions.md R172: the whole next state, for every answer of the transport. -/
def Obligations.ReadRegS16RunsProtocol : Prop :=
  ∀ (r : Register) (c : Nibble) (s : State), exec (.readRegS16 r c) s =
    .next (afterTransaction s (.readRegS16 r c) (readRequest r c)
      fun g => .s16 (BitVec.ofNat 16 (256 * g.b1.toNat + g.b2.toNat)).toInt)

/-- 43_transactions.md R173: the whole next state, for every answer of the transport. -/
def Obligations.SpecialReadRunsProtocol : Prop :=
  ∀ (c : Nibble) (s : State), exec (.specialRead c) s =
    .next (afterTransaction s (.specialRead c) (specialRequest c) fun g =>
      .pair (BitVec.ofNat 16 (16 * g.b1.toNat + g.b2.toNat % 16)) (BitVec.ofNat 16 (16 * g.b0.toNat + g.b2.toNat / 16)))

/-- 43_transactions.md R162, R164, R165, R168: a transaction that returns deasserts chip-select exactly once and made
exactly one transfer; a failed transfer gives TransportFault and no check (the request's CRC stays in the register).
The list of answers is the model's (log entry 3); that nothing but the CRC is checked is the spec's D10 (entry 19). -/
def Obligations.ReturnedTransactionBracketsOneTransfer : Prop :=
  ∀ (t : Transaction) (s s' : State), exec t.instr s = .next s' → s'.txStep = .idle → ∃ req out r,
    encode t.instr = some req ∧ s.nextAnswer req = .returns out ∧
    s'.log = s.log ++ [.csSet .low, .xfer req out, .csSet .high, .result r] ∧
    s'.results = s.results ++ [r] ∧ s'.cs = .high ∧ s'.answers = s.answers.tail ∧
    (∀ e, out = .err e → r = .err (.transportFault e) ∧ s'.crcReg = embeddedCrc req) ∧
    (∀ g, out = .ok g → ((∃ v, r = .ok v) ↔ responseCrc g = embeddedCrc g)) ∧
    (∀ g, out = .ok g → responseCrc g ≠ embeddedCrc g → r = .err .integrityFault)

/-- 43_transactions.md R166, 70_reset_and_hazards.md R251: a transfer that never returns leaves the transaction at S4
with chip-select Low and no result, and the model has no step from there. -/
def Obligations.HungTransferHoldsChipSelectLow : Prop :=
  ∀ (t : Transaction) (s : State) (req : Frame), encode t.instr = some req → s.nextAnswer req = .neverReturns →
    ∃ s', exec t.instr s = .next s' ∧ s'.txStep = .s4 ∧ s'.cs = .low ∧ s'.f = some req ∧
      s'.log = s.log ++ [.csSet .low] ∧ s'.results = s.results ∧ step s' = .fault .transferNeverReturns

/-- 43_transactions.md R163: what the chip-select driver reports changes nothing an operation does. -/
def Obligations.ChipSelectErrorsAreDiscarded : Prop :=
  ∀ (i : Instr) (s : State) (reports : List GpioReport),
    (∀ s', exec i s = .next s' → ∃ left, exec i { s with gpioReports := reports } = .next { s' with gpioReports := left }) ∧
    (∀ q, exec i s = .refused q → exec i { s with gpioReports := reports } = .refused q)

/-- 10_state.md R29, 43_transactions.md R160: the step counter advances one step at a time in the protocol's order,
and returns to Idle from S5 or S8 alone. -/
def Obligations.ProtocolStepsFollowInOrder : Prop :=
  ∀ s s' : State, s.txStep ≠ .idle → step s = .next s' → s.txStep.follows s'.txStep = true

/-- 43_transactions.md R161, step by step, in every state of a running transaction: what each of S1 to S8 does and
what it leaves. `build` and `decode` are the running transaction's. The model's own are: the answers taken and counted
(log entry 3), the reports taken (entry 7), the fields `running` and `out` (entry 9), and one protocol step per machine
step (entry 15). -/
def Obligations.ProtocolStepsDoAsListed : Prop :=
  ∀ (s : State) (t : Transaction), s.running = some t →
    (s.txStep = .s1 → step s = .next { s with
      f := some { requestOf t with b3 := (requestOf t).b3 &&& 0xF0#8 }, txStep := .s2 }) ∧
    (∀ f, s.txStep = .s2 → s.f = some f → step s = .next { s with
      f := some { f with b3 := f.b3 ||| (divideBytes 0xF#4 [f.b0, f.b1, f.b2, f.b3]).zeroExtend 8 }
      crcReg := divideBytes 0xF#4 [f.b0, f.b1, f.b2, f.b3], crcPhase := .closed, txStep := .s3 }) ∧
    (s.txStep = .s3 → step s = .next { s with
      cs := .low, log := s.log ++ [.csSet .low], gpioReports := s.gpioReports.tail, txStep := .s4 }) ∧
    (∀ f g, s.txStep = .s4 → s.f = some f → s.nextAnswer f = .returns (.ok g) → step s = .next { s with
      f := some g, out := some (.ok g), log := s.log ++ [.xfer f (.ok g)]
      answers := s.answers.tail, draws := s.draws + 1, txStep := .s5 }) ∧
    (∀ f e, s.txStep = .s4 → s.f = some f → s.nextAnswer f = .returns (.err e) → step s = .next { s with
      out := some (.err e), log := s.log ++ [.xfer f (.err e)]
      answers := s.answers.tail, draws := s.draws + 1, txStep := .s5 }) ∧
    (∀ g, s.txStep = .s5 → s.out = some (.ok g) → step s = .next { s with
      cs := .high, log := s.log ++ [.csSet .high], gpioReports := s.gpioReports.tail, out := none, txStep := .s6 }) ∧
    (∀ e, s.txStep = .s5 → s.out = some (.err e) → step s = .next { s with
      cs := .high, log := s.log ++ [.csSet .high, .result (.err (.transportFault e))]
      gpioReports := s.gpioReports.tail, results := s.results ++ [.err (.transportFault e)], txStep := .idle
      running := none, f := none, out := none, rxCrc := none, calcCrc := none }) ∧
    (∀ g, s.txStep = .s6 → s.f = some g → step s = .next { s with
      rxCrc := some (g.b3.extractLsb' 0 4), f := some { g with b3 := g.b3 &&& 0xF0#8 }, txStep := .s7 }) ∧
    (∀ g, s.txStep = .s7 → s.f = some g → step s = .next { s with
      crcReg := divideBytes 0xF#4 [g.b0, g.b1, g.b2, g.b3], crcPhase := .closed
      calcCrc := some (divideBytes 0xF#4 [g.b0, g.b1, g.b2, g.b3]), txStep := .s8 }) ∧
    (∀ g rx calculated, s.txStep = .s8 → s.f = some g → s.rxCrc = some rx → s.calcCrc = some calculated →
      ∃ r, step s = .next { s with
        log := s.log ++ [.result r], results := s.results ++ [r], txStep := .idle
        running := none, f := none, out := none, rxCrc := none, calcCrc := none } ∧
      (calculated ≠ rx → r = .err .integrityFault) ∧
      (calculated = rx → r = .ok (decodedBy t g)))

/-- 43_transactions.md R160, R161: the atomic transaction is its protocol steps, run one by one by the machine. That
both views exist and agree is the model's reading (log entry 15). -/
def Obligations.AtomicTransactionEqualsItsSteps : Prop :=
  ∀ (t : Transaction) (s : State) (req : Frame) (out : XferOutcome),
    encode t.instr = some req → s.nextAnswer req = .returns out →
    ∃ k s', k ≤ 8 ∧ Sys2Proof.core.run k (beginTransaction t s) = .next s' ∧ exec t.instr s = .next s' ∧
      s'.txStep = .idle

/-- 43_transactions.md R172: for one response the signed and the unsigned read agree bit for bit. -/
def Obligations.SignedAndUnsignedReadsAgree : Prop :=
  ∀ (r : Register) (c : Nibble) (s : State) (g : Frame),
    s.nextAnswer (readRequest r c) = .returns (.ok g) → responseCrc g = embeddedCrc g → ∃ s1 s2 u v,
      exec (.readReg r c) s = .next s1 ∧ exec (.readRegS16 r c) s = .next s2 ∧
      s1.results = s.results ++ [.ok (.u16 u)] ∧ s2.results = s.results ++ [.ok (.s16 v)] ∧
      BitVec.ofInt 16 v = u ∧ -32768 ≤ v ∧ v ≤ 32767 ∧
      { s2 with log := s1.log, results := s1.results } = s1

/-! ### The address decoder -/

/-- 44_register_address_decoder.md R192 with the table of R190, whose order inside the two compressed ranges is the
spec's decision D32 (log entry 19). -/
def Obligations.AddrEncodeGivesTableCode : Prop :=
  registerTable.length = 20 ∧ (∀ r : Register, ∃ a, (r, a) ∈ registerTable) ∧
  ∀ (r : Register) (a : Nat) (s : State), (r, a) ∈ registerTable →
    exec (.addrEncode r) s = .next { s with results := s.results ++ [.ok (.u7 (BitVec.ofNat 7 a))] }

/-- 44_register_address_decoder.md R193: the register whose address the code is, or none for 0x12 and 0x15 to 0x7F. -/
def Obligations.AddrDecodeNamesRegisterOrNone : Prop :=
  ∀ (code : Addr7) (s : State), ∃ found : Option Register,
    exec (.addrDecode code) s = .next { s with results := s.results ++ [.ok (.register found)] } ∧
    (∀ r, found = some r ↔ addrCode r = code) ∧
    (found = none ↔ code.toNat = 0x12 ∨ (0x15 ≤ code.toNat ∧ code.toNat ≤ 0x7F)) ∧
    (code = 0x11#7 → found = some .magGainConfig) ∧ (code = 0x13#7 → found = some .angleResult) ∧
    (code = 0x0C#7 → found = some .tempResult)

/-- 44_register_address_decoder.md R194: the two operations are inverse, and 20 of the 128 codes decode. -/
def Obligations.AddressMapsAreInverse : Prop :=
  (∀ r, addrDecode (addrCode r) = some r) ∧ (∀ code r, addrDecode code = some r → addrCode r = code) ∧
  ((List.range 128).filter fun n => (addrDecode (BitVec.ofNat 7 n)).isSome).length = 20

/-! ### Calls, decoding and encoding -/

/-- 10_state.md R20, 20_memory.md R51, 60_exceptions.md R218: at Idle the machine takes the caller's next call and runs
the operation it stands for; without a call nothing happens. The queue of calls is the model's choice (log entry 1). -/
def Obligations.StepRunsResolvedCall : Prop :=
  ∀ s : State, s.txStep = .idle →
    (s.calls = [] → step s = .next s) ∧
    ∀ (c : Call) (rest : List Call) (i : Instr), s.calls = c :: rest → c.resolve = .ok i →
      step s = exec i { s with calls := rest }

/-- A word of the opcode table, placed as the next call, runs the operation it decodes to. Call words are the model's
choice (log entry 2). -/
def Obligations.StepRunsDecodedWord : Prop :=
  ∀ (s : State) (w : Nat) (i : Instr), decodeTableWord 32 w = some i →
    step (s.withFetchWord 32 w) = exec i { s with
      txStep := .idle, running := none, f := none, out := none, rxCrc := none, calcCrc := none }

/-- 30_encoding.md R68, R73: the calls that stand for an operation are those the grammar admits. That a raw code naming
a register is admitted is the model's reading (log entry 11), call words are its choice (log entry 2). -/
def Obligations.CallsResolveExactlyWhenWellFormed : Prop :=
  ∀ c : Call, c.wellFormed = true ↔ ∃ i, c.resolve = .ok i

/-- 60_exceptions.md R213, R214: a call outside the grammar is refused before anything runs, by its reason. That a raw
code naming a register is taken for it is the model's reading (log entry 11); that a raw code is checked before the
command is its choice (log entry 12), and so are call words (log entry 2). -/
def Obligations.IllFormedCallsAreRefusedByReason : Prop :=
  ∀ (s : State) (c : Call) (rest : List Call), s.txStep = .idle → s.calls = c :: rest →
    (∀ (a : Addr7) (v : Half) (cmd : Option Nat), a.toNat = 0x12 ∨ 0x15 ≤ a.toNat →
      c ∈ [.writeReg (.code a) v cmd, .readReg (.code a) cmd, .readRegS16 (.code a) cmd,
        .frameWrite (.code a) v cmd, .frameRead (.code a) cmd, .addrEncode (.code a)] →
      step s = .refused .notARegister) ∧
    (∀ (r : Register) (operand : RegOperand) (v : Half) (n : Nat),
      operand = .name r ∨ operand = .code (addrCode r) → 15 < n →
      c ∈ [.writeReg operand v (some n), .readReg operand (some n), .readRegS16 operand (some n),
        .specialRead (some n), .frameWrite operand v (some n), .frameRead operand (some n),
        .frameSpecial (some n)] →
      step s = .refused .commandOutOfRange) ∧
    (∀ bytes, wordWellFormed bytes = false → c = .word bytes → ∃ why, step s = .refused (.notARequest why))

/-- 30_encoding.md R69: a call without its command is the call with command 0x0. -/
def Obligations.OmittedCommandIsZero : Prop :=
  ∀ (r : RegOperand) (v : Half),
    (Call.writeReg r v none).resolve = (Call.writeReg r v (some 0x0)).resolve ∧
    (Call.readReg r none).resolve = (Call.readReg r (some 0x0)).resolve ∧
    (Call.readRegS16 r none).resolve = (Call.readRegS16 r (some 0x0)).resolve ∧
    (Call.specialRead none).resolve = (Call.specialRead (some 0x0)).resolve ∧
    (Call.frameWrite r v none).resolve = (Call.frameWrite r v (some 0x0)).resolve ∧
    (Call.frameRead r none).resolve = (Call.frameRead r (some 0x0)).resolve ∧
    (Call.frameSpecial none).resolve = (Call.frameSpecial (some 0x0)).resolve ∧
    (Call.specialRead none).resolve = .ok (.specialRead 0x0#4)

/-- 30_encoding.md R78: the pseudo-operations expand; the pairing of the `apply` group is the spec's decision D19
(log entry 19). -/
def Obligations.PseudoOperationsExpand : Prop :=
  ∀ v : Half,
    (Call.triggerConversion v).resolve = .ok (.writeReg .deviceConfig v 0x1#4) ∧
    (Call.applyDeviceConfig v).resolve = (Call.writeReg (.name .deviceConfig) v none).resolve ∧
    (Call.applySensorConfig v).resolve = (Call.writeReg (.name .sensorConfig) v none).resolve ∧
    (Call.applySystemConfig v).resolve = (Call.writeReg (.name .systemConfig) v none).resolve ∧
    (Call.applyAlertConfig v).resolve = (Call.writeReg (.name .alertConfig) v none).resolve

/-- 30_encoding.md R60 to R66: decoding an operation's request gives the operation back, every operand included. -/
def Obligations.DecodeInvertsEncode : Prop :=
  ∀ (i : Instr) (f : Frame), encode i = some f → decode i.opcode f.bytes = .ok i

/-- 30_encoding.md R74: the decoder accepts nothing but the requests the block emits. -/
def Obligations.DecodedRequestsAreEncodings : Prop :=
  ∀ (op : Opcode) (bytes : List Byte) (i : Instr), decode op bytes = .ok i →
    i.opcode = op ∧ ∃ f, encode i = some f ∧ bytes = f.bytes

/-- 30_encoding.md R61, R63, R64, R66: match and mask of the three forms, and the fields of each. -/
def Obligations.EncodingsMatchFormPatterns : Prop :=
  ∀ (r : Register) (v : Half) (c : Nibble) (f : Frame),
    (encode (.frameWrite r v c) = some f ∨ encode (.writeReg r v c) = some f →
      f.word &&& 0x80000000#32 = 0x00000000#32 ∧ f.word.extractLsb' 24 7 = addrCode r ∧ f.word.extractLsb' 8 16 = v ∧
      f.word.extractLsb' 4 4 = c ∧ f.word.extractLsb' 0 4 = responseCrc f) ∧
    (encode (.frameRead r c) = some f ∨ encode (.readReg r c) = some f ∨ encode (.readRegS16 r c) = some f →
      f.word &&& 0x80FFFF00#32 = 0x80000000#32 ∧ f.word.extractLsb' 24 7 = addrCode r ∧
      f.word.extractLsb' 4 4 = c ∧ f.word.extractLsb' 0 4 = responseCrc f) ∧
    (encode (.frameSpecial c) = some f ∨ encode (.specialRead c) = some f →
      f.word &&& 0xFFFFFF00#32 = 0x80000000#32 ∧ f.word.extractLsb' 4 4 = c ∧
      f.word.extractLsb' 0 4 = responseCrc f)

/-- 95_test_vectors.md V-FRM-2, V-FRM-7, V-FRM-11, V-FRM-12, V-FRM-13, V-FRM-14: words written out from the spec decode. -/
def Obligations.SampleWordsDecode : Prop :=
  decode .writeReg [0x01#8, 0x12#8, 0x34#8, 0x0D#8] = .ok (.writeReg .sensorConfig 0x1234#16 0x0#4) ∧
  decode .frameWrite [0x11#8, 0x00#8, 0xFF#8, 0xF1#8] = .ok (.frameWrite .magGainConfig 0x00FF#16 0xF#4) ∧
  decode .readReg [0x80#8, 0x00#8, 0x00#8, 0x1A#8] = .ok (.readReg .deviceConfig 0x1#4) ∧
  decode .readRegS16 [0x89#8, 0x00#8, 0x00#8, 0x00#8] = .ok (.readRegS16 .xChResult 0x0#4) ∧
  decode .frameRead [0x94#8, 0x00#8, 0x00#8, 0x0A#8] = .ok (.frameRead .magnitudeResult 0x0#4) ∧
  decode .specialRead [0x80#8, 0x00#8, 0x00#8, 0x0F#8] = .ok (.specialRead 0x0#4) ∧
  decode .frameSpecial [0x80#8, 0x00#8, 0x00#8, 0xF9#8] = .ok (.frameSpecial 0xF#4) ∧
  decode .writeReg [0x12#8, 0x00#8, 0x00#8, 0x00#8] = .error .undefinedAddress

/-! ### The whole machine -/

/-- 10_state.md R25, R26, R28, R29, 43_transactions.md R168: each piece of transaction state exists exactly when the
spec says, and chip-select is Low exactly around the transfer. -/
def Obligations.BlockInvariantIsKept : Prop :=
  ∀ s s' : State, Inv s → step s = .next s' → Inv s'

/-- The invariant, the bracketing and the log's content hold at construction under the launch premise
(70_reset_and_hazards.md R241, R242), for every `crc_powerup`, and so at reset. -/
def Obligations.BlockInvariantAtConstruction : Prop :=
  (∀ k, Inv (State.constructed k .high) ∧ LogBracketed (State.constructed k .high) ∧
    LogRequestsEncoded (State.constructed k .high) ∧ BufferHoldsRequest (State.constructed k .high)) ∧
  Inv State.reset ∧ LogBracketed State.reset

/-- 43_transactions.md R164: along every run chip-select goes low, then high, around exactly one transfer, call by
call, even when the transfer fails. -/
def Obligations.LogBracketingIsKept : Prop :=
  ∀ s s' : State, Inv s → LogBracketed s → step s = .next s' → LogBracketed s'

/-- 30_encoding.md R74: along every run the block puts nothing on the wire but the encodings of transactions, and its
buffer holds the running transaction's own request until the transfer. -/
def Obligations.EmittedRequestsStayEncodings : Prop :=
  ∀ s s' : State, Inv s → BufferHoldsRequest s → LogRequestsEncoded s → step s = .next s' →
    BufferHoldsRequest s' ∧ LogRequestsEncoded s'

/-- 20_memory.md R51, 10_state.md R32: no step takes back an event or a result. -/
def Obligations.LogAndResultsOnlyGrow : Prop :=
  ∀ s s' : State, step s = .next s' → s.log <+: s'.log ∧ s.results <+: s'.results

/-- 20_memory.md R51, 43_transactions.md R160: calls are taken one by one in the caller's order, and none while a
transaction runs. -/
def Obligations.CallsAreTakenInOrder : Prop :=
  ∀ s s' : State, step s = .next s' →
    (s.txStep = .idle → s'.calls = s.calls.tail) ∧ (s.txStep ≠ .idle → s'.calls = s.calls)

/-- The frame of the 12 operations that are no transaction: one result, and of the block's state at most the CRC
engine; the engine too stays as it is for DECODE_* and ADDR_* (42_response_validator.md R144, R145, R147;
44_register_address_decoder.md R192, R193). That VALIDATE (R140) leaves the buffer and the transients as they were is
the model's reading (log entry 13), and so is that these operations log no event (log entry 10). -/
def Obligations.ComponentOperationsTouchOnlyTheEngine : Prop :=
  ∀ (i : Instr) (s s' : State), AtRest s → (∀ t : Transaction, i ≠ t.instr) → exec i s = .next s' →
    (∃ r, s' = { s with crcReg := s'.crcReg, crcPhase := s'.crcPhase, results := s.results ++ [r] }) ∧
    (i.opcode ∈ [Opcode.decodeReg, .decodeRegS16, .decodeDual, .addrEncode, .addrDecode] →
      s'.crcReg = s.crcReg ∧ s'.crcPhase = s.crcPhase)

/-- 60_exceptions.md R212, R213: an operation never faults, and the one refusal of an operation is CrcNotOpen. -/
def Obligations.OnlyUnopenedCrcOperationsAreRefused : Prop :=
  ∀ (i : Instr) (s : State), (∀ q, exec i s ≠ .fault q) ∧
    ∀ q, exec i s = .refused q ↔
      q = .crcNotOpen ∧ s.crcPhase ≠ .opened ∧ (i.opcode = .crcUpdate ∨ i.opcode = .crcFinish)

/-- 70_reset_and_hazards.md R244, 43_transactions.md R168: a frame operation, VALIDATE or a transaction ends the
caller's computation, and CRC_UPDATE and CRC_FINISH are refused until the next CRC_RESET. -/
def Obligations.FrameOperationsCloseCallersComputation : Prop :=
  ∀ (i : Instr) (s : State),
    i.opcode ∈ [Opcode.frameWrite, .frameRead, .frameSpecial, .validate, .writeReg, .readReg, .readRegS16,
      .specialRead] →
    ∃ s', exec i s = .next s' ∧ s'.crcPhase = .closed ∧ exec .crcFinish s' = .refused .crcNotOpen ∧
      ∀ bs, exec (.crcUpdate bs) s' = .refused .crcNotOpen

/-- 43_transactions.md R166: a sound state faults only in its running transaction's own transfer, which never returns,
with chip-select Low. The faults' names are the model's (log entries 4, 8). -/
def Obligations.StuckOnlyInUnansweredTransfer : Prop :=
  ∀ (s : State) (q : Fault), Inv s → step s = .fault q →
    q = .transferNeverReturns ∧ s.txStep = .s4 ∧ s.cs = .low ∧
    ∃ req, s.f = some req ∧ s.nextAnswer req = .neverReturns

/-- 60_exceptions.md R213, R214: a sound state refuses only the caller's next call, at Idle with chip-select High: a call
outside the grammar, or a CRC operation on an engine that is not Open. -/
def Obligations.RefusedOnlyForNextCall : Prop :=
  ∀ (s : State) (q : Refusal), Inv s → step s = .refused q →
    s.txStep = .idle ∧ s.cs = .high ∧ ∃ c rest, s.calls = c :: rest ∧
    ((∃ why, c.resolve = .error why ∧ q = refusalOf why) ∨
     (∃ i, c.resolve = .ok i ∧ (i = .crcFinish ∨ ∃ bs, i = .crcUpdate bs) ∧ s.crcPhase ≠ .opened ∧ q = .crcNotOpen))

/-- 00_scope.md R8, 60_exceptions.md R210: the transport's error type is a parameter that no rule reads. With every error
replaced by another, a step does the same, and hands the replaced error on unchanged. Where the answers are listed, since
free draws are not compared (log entry 3). -/
def Obligations.TransportErrorsAreOpaque : Prop :=
  ∀ (φ : TransportError → TransportError) (s : State), s.answers ≠ [] →
    (∀ s', step s = .next s' → step (s.mapErrors φ) = .next (s'.mapErrors φ)) ∧
    (∀ q, step s = .fault q → step (s.mapErrors φ) = .fault q) ∧
    (∀ q, step s = .refused q → step (s.mapErrors φ) = .refused q)
end

