-- ==== Sys2Proof/Laws/Crc.lean ====
section
/-! SUPPORT. Laws of the polynomial division: composition of updates, linearity of the step. -/

namespace Sys2Proof

@[simp] theorem crcOutput_eq (reg : Nibble) : crcOutput reg = reg := by revert reg; decide

@[simp] theorem crcBytes_nil (reg : Nibble) : crcBytes reg [] = reg := rfl

@[simp] theorem crcBytes_cons (reg : Nibble) (b : Byte) (bs : List Byte) :
    crcBytes reg (b :: bs) = crcBytes (crcByte reg b) bs := rfl

theorem crcBytes_append (reg : Nibble) (a b : List Byte) :
    crcBytes reg (a ++ b) = crcBytes (crcBytes reg a) b := by simp [crcBytes]

/-- The division over bytes is the division over their bits. -/
theorem crcBytes_eq_bits (reg : Nibble) (bs : List Byte) :
    crcBytes reg bs = (bs.flatMap byteBits).foldl crcStep reg := by
  induction bs generalizing reg with
  | nil => rfl
  | cons b bs ih => simp [List.flatMap_cons, List.foldl_append, ih, crcByte]

/-- The step is linear over XOR in register and input bit together. -/
theorem crcStep_xor (a b : Nibble) (x y : Bool) :
    crcStep (a ^^^ b) (x ^^ y) = crcStep a x ^^^ crcStep b y := by
  revert a b x y; decide

theorem byteBits_xor (a b : Byte) : byteBits (a ^^^ b) = List.zipWith (· ^^ ·) (byteBits a) (byteBits b) := by
  simp [byteBits]

/-- A byte through the division is linear over XOR. -/
theorem crcByte_xor (p q : Nibble) (a b : Byte) : crcByte (p ^^^ q) (a ^^^ b) = crcByte p a ^^^ crcByte q b := by
  simp only [crcByte, byteBits, BitVec.getLsbD_xor, List.foldl_cons, List.foldl_nil, crcStep_xor]

/-- A byte sequence through the division is linear over XOR, for sequences of one length. -/
theorem crcBytes_xor (p q : Nibble) (a b : List Byte) (h : a.length = b.length) :
    crcBytes (p ^^^ q) (List.zipWith (· ^^^ ·) a b) = crcBytes p a ^^^ crcBytes q b := by
  induction a generalizing b p q with
  | nil => cases b <;> simp_all
  | cons x xs ih =>
    cases b with
    | nil => simp at h
    | cons y ys => simp [crcByte_xor, ih _ _ ys (by simpa using h)]

end Sys2Proof
end

