-- ==== Sys2Proof/Laws/Frames.lean ====
section
/-! SUPPORT. Laws of frames: zeroing and inserting the CRC nibble, the layouts as the spec's request patterns, and
the results as arithmetic. -/

namespace Sys2Proof

theorem commandByte_eq (c : Nibble) : commandByte c = c ++ 0x0#4 := by revert c; decide

theorem orCrc_nibble (c k : Nibble) : (c ++ 0x0#4 : Byte) ||| k.zeroExtend 8 = c ++ k := by revert c k; decide

theorem zeroCrc_byte (c k : Nibble) : (c ++ k : Byte) &&& 0xF0#8 = c ++ 0x0#4 := by revert c k; decide

theorem crcNibble_byte (c k : Nibble) : (c ++ k : Byte).extractLsb' 0 4 = k := by revert c k; decide

theorem command_byte (c k : Nibble) : (c ++ k : Byte).extractLsb' 4 4 = c := by revert c k; decide

theorem byte_split (b : Byte) : b.extractLsb' 4 4 ++ b.extractLsb' 0 4 = b := by revert b; decide

theorem zeroCrc_idem (f : Frame) : f.zeroCrc.zeroCrc = f.zeroCrc := by
  simp [Frame.zeroCrc, BitVec.and_assoc]

theorem addrByte_write (a : Addr7) : a.zeroExtend 8 = 0#1 ++ a := by revert a; decide

theorem addrByte_read (a : Addr7) : a.zeroExtend 8 ||| 0x80#8 = 1#1 ++ a := by revert a; decide

theorem readFlag_byte (x : BitVec 1) (a : Addr7) : (x ++ a : Byte).getLsbD 7 = x.getLsbD 0 := by
  revert x a; decide

theorem addr_byte (x : BitVec 1) (a : Addr7) : (x ++ a : Byte).extractLsb' 0 7 = a := by revert x a; decide

/-- The division's linearity makes one flipped bit visible: a nonzero difference stays nonzero. -/
theorem crcByte_injective (p q : Nibble) (b : Byte) (h : crcByte p b = crcByte q b) : p = q := by
  have hlin := crcByte_xor p q b b
  rw [h, BitVec.xor_self, BitVec.xor_self] at hlin
  have hz : ∀ d : Nibble, crcByte d 0#8 = 0#4 → d = 0#4 := by decide
  have hd := hz _ hlin
  have hpq : p ^^^ q ^^^ q = 0#4 ^^^ q := by rw [hd]
  simpa [BitVec.xor_assoc] using hpq

namespace Machine

@[simp] theorem sealedFrame_zeroCrc_bytes (b0 b1 b2 : Byte) (c : Nibble) :
    (sealedFrame b0 b1 b2 c).zeroCrc.bytes = [b0, b1, b2, c ++ 0x0#4] := by
  simp only [sealedFrame, Frame.zeroCrc, Frame.bytes, zeroCrc_byte]

@[simp] theorem sealedFrame_crcNibble (b0 b1 b2 : Byte) (c : Nibble) :
    (sealedFrame b0 b1 b2 c).crcNibble = crc4 [b0, b1, b2, c ++ 0x0#4] := by
  simp only [sealedFrame, Frame.crcNibble, crcNibble_byte]

/-- A sealed frame passes the validator: the round trip of 41_frame_constructor.md R127. -/
theorem frameValid_sealedFrame (b0 b1 b2 : Byte) (c : Nibble) : frameValid (sealedFrame b0 b1 b2 c) = true := by
  simp [frameValid, crcMatches]

/-- Inserting the CRC into a layout whose byte 3 is `c << 4` seals it (41_frame_constructor.md R122, R123). -/
theorem orCrc_layout (b0 b1 b2 : Byte) (c : Nibble) :
    (Frame.mk b0 b1 b2 (commandByte c)).orCrc (crc4 (Frame.mk b0 b1 b2 (commandByte c)).bytes)
      = sealedFrame b0 b1 b2 c := by
  simp only [Frame.orCrc, Frame.bytes, commandByte_eq, orCrc_nibble, sealedFrame]

theorem layoutWrite_sealed (r : Register) (v : Half) (c : Nibble) :
    (layoutWrite r v c).orCrc (crc4 (layoutWrite r v c).bytes) = writeRequest r v c := by
  rw [layoutWrite, orCrc_layout, addrByte_write]; rfl

theorem layoutRead_sealed (r : Register) (c : Nibble) :
    (layoutRead r c).orCrc (crc4 (layoutRead r c).bytes) = readRequest r c := by
  rw [layoutRead, orCrc_layout, addrByte_read]; rfl

theorem layoutSpecial_sealed (c : Nibble) :
    (layoutSpecial c).orCrc (crc4 (layoutSpecial c).bytes) = specialRequest c := by
  rw [layoutSpecial, orCrc_layout]; rfl

theorem layout_sealed (t : Transaction) : t.layout.orCrc (crc4 t.layout.bytes) = requestOf t := by
  cases t with
  | writeReg r v c => exact layoutWrite_sealed r v c
  | readReg r c => exact layoutRead_sealed r c
  | readRegS16 r c => exact layoutRead_sealed r c
  | specialRead c => exact layoutSpecial_sealed c

/-- The CRC a transaction computes at S2 is the nibble of its request. -/
theorem crc4_layout (t : Transaction) : crc4 t.layout.bytes = embeddedCrc (requestOf t) := by
  have h : ∀ (b0 b1 b2 : Byte) (c : Nibble),
      crc4 (Frame.mk b0 b1 b2 (commandByte c)).bytes = embeddedCrc (sealedFrame b0 b1 b2 c) := by
    intro b0 b1 b2 c
    simp only [Frame.bytes, commandByte_eq, embeddedCrc, sealedFrame, crcNibble_byte]
  cases t with
  | writeReg r v c => rw [Transaction.layout, layoutWrite, h, addrByte_write]; rfl
  | readReg r c => rw [Transaction.layout, layoutRead, h, addrByte_read]; rfl
  | readRegS16 r c => rw [Transaction.layout, layoutRead, h, addrByte_read]; rfl
  | specialRead c => rw [Transaction.layout, layoutSpecial, h]; rfl

theorem crc4_zeroCrc (g : Frame) : crc4 g.zeroCrc.bytes = responseCrc g := rfl

theorem crcNibble_eq (g : Frame) : g.crcNibble = embeddedCrc g := rfl

theorem crcMatches_iff (a b : Nibble) : crcMatches a b = true ↔ a = b := by simp [crcMatches]

theorem frameValid_iff (g : Frame) : frameValid g = true ↔ responseCrc g = embeddedCrc g := by
  rw [frameValid, crcMatches_iff, crc4_zeroCrc, crcNibble_eq]

end Machine

end Sys2Proof
end

