-- ==== Sys2Proof/Laws/Decode.lean ====
section
/-! SUPPORT. Laws of the address map, the fields of a request, and the encoder's frames as the spec writes them. -/

namespace Sys2Proof

theorem ofBytes_bytes (f : Frame) : Frame.ofBytes f.bytes = some f := rfl

theorem ofBytes_eq_some (bytes : List Byte) (f : Frame) : Frame.ofBytes bytes = some f ↔ bytes = f.bytes := by
  match bytes with
  | [] => simp [Frame.ofBytes, Frame.bytes]
  | [_] => simp [Frame.ofBytes, Frame.bytes]
  | [_, _] => simp [Frame.ofBytes, Frame.bytes]
  | [_, _, _] => simp [Frame.ofBytes, Frame.bytes]
  | [_, _, _, _] => cases f; simp [Frame.ofBytes, Frame.bytes]
  | _ :: _ :: _ :: _ :: _ :: _ => simp [Frame.ofBytes, Frame.bytes]

theorem addrDecode_addrCode (r : Register) : addrDecode (addrCode r) = some r := by cases r <;> decide

theorem addrDecode_eq_some (a : Addr7) (r : Register) : addrDecode a = some r ↔ addrCode r = a := by
  constructor
  · intro h
    simpa using List.find?_some h
  · rintro rfl
    exact addrDecode_addrCode r

theorem addrDecode_isSome (a : Addr7) : (addrDecode a).isSome = codeIsDefined a := by revert a; decide

/-- The four bytes of a number written as four bytes. -/
theorem ofWord_append (x0 x1 x2 x3 : Byte) : Frame.ofWord (x0 ++ x1 ++ x2 ++ x3) = ⟨x0, x1, x2, x3⟩ := by
  simp only [Frame.ofWord, Frame.mk.injEq]
  refine ⟨?_, ?_, ?_, ?_⟩ <;> apply BitVec.eq_of_getLsbD_eq <;> intro i hi <;>
    simp only [BitVec.getLsbD_extractLsb', BitVec.getLsbD_append, hi, decide_true, Bool.true_and] <;>
    (repeat' split) <;> first | omega | (congr 1; omega)

theorem ofWord_word (f : Frame) : Frame.ofWord f.word = f := ofWord_append f.b0 f.b1 f.b2 f.b3

/-- The four bytes of the pattern `R a v c k` (30_encoding.md R60). -/
theorem ofWord_pattern (x : BitVec 1) (a : Addr7) (v : Half) (c k : Nibble) :
    Frame.ofWord (x ++ a ++ v ++ c ++ k) = ⟨x ++ a, v.extractLsb' 8 8, v.extractLsb' 0 8, c ++ k⟩ := by
  simp only [Frame.ofWord, Frame.mk.injEq]
  refine ⟨?_, ?_, ?_, ?_⟩ <;> apply BitVec.eq_of_getLsbD_eq <;> intro i hi <;>
    simp only [BitVec.getLsbD_extractLsb', BitVec.getLsbD_append, hi, decide_true, Bool.true_and] <;>
    (repeat' split) <;> first | omega | (congr 1; omega)

theorem withCrc_pattern (x : BitVec 1) (a : Addr7) (v : Half) (c : Nibble) :
    withCrc (fun k => (x ++ a ++ v ++ c ++ k : BitVec 32))
      = Machine.sealedFrame (x ++ a) (v.extractLsb' 8 8) (v.extractLsb' 0 8) c :=
  (congrArg (fun g : Frame => Frame.ofWord (x ++ a ++ v ++ c ++ crc4 g.bytes)) (ofWord_pattern x a v c 0x0#4)).trans
    (ofWord_pattern x a v c _)

/-- The four mask bytes of a pattern act byte by byte. -/
theorem mask_append (b0 b1 b2 b3 m0 m1 m2 m3 : Byte) :
    (Frame.mk b0 b1 b2 b3).word &&& (m0 ++ m1 ++ m2 ++ m3)
      = (b0 &&& m0) ++ (b1 &&& m1) ++ (b2 &&& m2) ++ (b3 &&& m3) := by
  apply BitVec.eq_of_getLsbD_eq
  intro i hi
  simp only [Frame.word, BitVec.getLsbD_and, BitVec.getLsbD_append]
  (repeat' split) <;> simp

/-- The fields A, DH:DL, C and K of the number `W(f)`, from the frame's bytes. -/
theorem word_fields (b0 b1 b2 b3 : Byte) :
    (Frame.mk b0 b1 b2 b3).word.extractLsb' 24 7 = b0.extractLsb' 0 7 ∧
    (Frame.mk b0 b1 b2 b3).word.extractLsb' 8 16 = b1 ++ b2 ∧
    (Frame.mk b0 b1 b2 b3).word.extractLsb' 4 4 = b3.extractLsb' 4 4 ∧
    (Frame.mk b0 b1 b2 b3).word.extractLsb' 0 4 = b3.extractLsb' 0 4 := by
  refine ⟨?_, ?_, ?_, ?_⟩ <;> apply BitVec.eq_of_getLsbD_eq <;> intro i hi <;>
    simp only [Frame.word, BitVec.getLsbD_extractLsb', BitVec.getLsbD_append, hi, decide_true, Bool.true_and] <;>
    (repeat' split) <;> first | omega | (congr 1; omega) | rfl

/-- Byte 0 is its flag and its seven address bits (44_register_address_decoder.md R195). -/
theorem flag_addr_byte (b : Byte) : b = ((if b.getLsbD 7 then 1#1 else 0#1) ++ b.extractLsb' 0 7 : Byte) := by
  revert b; decide

theorem bytes_of_half (a b : Byte) :
    (a ++ b : Half).extractLsb' 8 8 = a ∧ (a ++ b : Half).extractLsb' 0 8 = b := by
  constructor <;> apply BitVec.eq_of_getLsbD_eq <;> intro i hi <;>
    simp only [BitVec.getLsbD_extractLsb', BitVec.getLsbD_append, hi, decide_true, Bool.true_and] <;>
    (repeat' split) <;> first | omega | (congr 1; omega)

theorem bytes_of_half_zero (a b : Byte) (h : (a ++ b : Half) = 0#16) : a = 0#8 ∧ b = 0#8 := by
  have := bytes_of_half a b
  rw [h] at this
  exact ⟨this.1.symm.trans (by decide), this.2.symm.trans (by decide)⟩

namespace Machine

theorem encode_write (r : Register) (v : Half) (c : Nibble) :
    withCrc (encodeWrite (addrCode r) v c) = writeRequest r v c := withCrc_pattern 0#1 _ v c

theorem encode_read (r : Register) (c : Nibble) :
    withCrc (encodeRead (addrCode r) c) = readRequest r c := withCrc_pattern 1#1 _ 0x0000#16 c

theorem encode_special (c : Nibble) : withCrc (encodeSpecial c) = specialRequest c :=
  withCrc_pattern 1#1 0x00#7 0x0000#16 c

/-- A transaction sends its encoding (30_encoding.md R66). -/
theorem encode_transaction (t : Transaction) : encode t.instr = some (requestOf t) := by
  cases t <;> simp only [Transaction.instr, encode, encode_write, encode_read, encode_special, requestOf]

/-- The fields of a sealed request (30_encoding.md R60). -/
theorem fields_sealedFrame (x : BitVec 1) (a : Addr7) (b1 b2 : Byte) (c : Nibble) :
    (sealedFrame (x ++ a) b1 b2 c).fields
      = { readFlag := x.getLsbD 0, addr := a, payload := b1 ++ b2, command := c } := by
  simp only [Frame.fields, sealedFrame, readFlag_byte, addr_byte, command_byte]

theorem half_split (v : Half) : (v.extractLsb' 8 8 ++ v.extractLsb' 0 8 : Half) = v := by
  apply BitVec.eq_of_getLsbD_eq
  intro i hi
  simp only [BitVec.getLsbD_append, BitVec.getLsbD_extractLsb']
  split
  · simp [*]
  · simp [show i - 8 < 8 by omega, show 8 + (i - 8) = i by omega]

theorem crcAgrees_sealedFrame (b0 b1 b2 : Byte) (c : Nibble) : (sealedFrame b0 b1 b2 c).crcAgrees = true := by
  simp [Frame.crcAgrees]

/-- A frame whose CRC nibble agrees is the sealed frame of its other 28 bits (30_encoding.md R65). -/
theorem eq_sealedFrame_of_crcAgrees (f : Frame) (h : f.crcAgrees = true) :
    f = sealedFrame f.b0 f.b1 f.b2 (f.b3.extractLsb' 4 4) := by
  cases f with | mk b0 b1 b2 b3 =>
  simp only [Frame.crcAgrees, beq_iff_eq] at h
  have hz : ∀ b3 : Byte, b3 &&& 0xF0#8 = b3.extractLsb' 4 4 ++ 0#4 := by decide
  simp only [Frame.zeroCrc, Frame.bytes, hz b3, Frame.crcNibble] at h
  simp only [sealedFrame, Frame.mk.injEq, true_and]
  rw [h]
  exact (byte_split b3).symm

end Machine

end Sys2Proof
end

