-- ==== Sys2Proof/Laws/Errors.lean ====
section
/-! SUPPORT. Replacing the transport's errors in a state: what it leaves, and that the shared operations commute
with it. -/

namespace Sys2Proof.Machine

variable (φ : TransportError → TransportError)

@[simp] theorem mapErrors_crcReg (s : State) : (s.mapErrors φ).crcReg = s.crcReg := rfl
@[simp] theorem mapErrors_crcPhase (s : State) : (s.mapErrors φ).crcPhase = s.crcPhase := rfl
@[simp] theorem mapErrors_f (s : State) : (s.mapErrors φ).f = s.f := rfl
@[simp] theorem mapErrors_rxCrc (s : State) : (s.mapErrors φ).rxCrc = s.rxCrc := rfl
@[simp] theorem mapErrors_calcCrc (s : State) : (s.mapErrors φ).calcCrc = s.calcCrc := rfl
@[simp] theorem mapErrors_cs (s : State) : (s.mapErrors φ).cs = s.cs := rfl
@[simp] theorem mapErrors_txStep (s : State) : (s.mapErrors φ).txStep = s.txStep := rfl
@[simp] theorem mapErrors_running (s : State) : (s.mapErrors φ).running = s.running := rfl
@[simp] theorem mapErrors_calls (s : State) : (s.mapErrors φ).calls = s.calls := rfl
@[simp] theorem mapErrors_draws (s : State) : (s.mapErrors φ).draws = s.draws := rfl
@[simp] theorem mapErrors_gpioReports (s : State) : (s.mapErrors φ).gpioReports = s.gpioReports := rfl
@[simp] theorem mapErrors_out (s : State) : (s.mapErrors φ).out = s.out.map (mapXferOutcome φ) := rfl
@[simp] theorem mapErrors_log (s : State) : (s.mapErrors φ).log = s.log.map (mapEvent φ) := rfl
@[simp] theorem mapErrors_results (s : State) : (s.mapErrors φ).results = s.results.map (mapResult φ) := rfl
@[simp] theorem mapErrors_answers (s : State) : (s.mapErrors φ).answers = s.answers.map (mapAnswer φ) := rfl

/-- A listed answer is the old one with its error replaced. -/
theorem nextAnswer_mapErrors (s : State) (req : Frame) (h : s.answers ≠ []) :
    (s.mapErrors φ).nextAnswer req = mapAnswer φ (s.nextAnswer req) := by
  cases ha : s.answers with
  | nil => exact absurd ha h
  | cons a rest => simp [State.nextAnswer, ha]

theorem deliver_mapErrors (r : OpResult) (s : State) :
    deliver (mapResult φ r) (s.mapErrors φ) = (deliver r s).mapErrors φ := by
  simp [deliver, State.mapErrors]

theorem endOperation_mapErrors (r : OpResult) (s : State) :
    endOperation (mapResult φ r) (s.mapErrors φ) = (endOperation r s).mapErrors φ := by
  cases s with | mk _ _ _ _ _ _ _ running =>
  cases running <;> simp [endOperation, deliver, State.mapErrors, mapEvent]

end Sys2Proof.Machine
end

