-- ==== Sys2Proof/Laws/State.lean ====
section
/-! SUPPORT. One lemma per field per update of the state, so that no proof unfolds a record update. -/

namespace Sys2Proof.Machine

section Updates
variable (s : State)

/-! `engineReset` -/
@[simp] theorem engineReset_crcReg : (engineReset s).crcReg = Config.crcInit := rfl
@[simp] theorem engineReset_crcPhase : (engineReset s).crcPhase = .opened := rfl
@[simp] theorem engineReset_f : (engineReset s).f = s.f := rfl
@[simp] theorem engineReset_rxCrc : (engineReset s).rxCrc = s.rxCrc := rfl
@[simp] theorem engineReset_calcCrc : (engineReset s).calcCrc = s.calcCrc := rfl
@[simp] theorem engineReset_cs : (engineReset s).cs = s.cs := rfl
@[simp] theorem engineReset_txStep : (engineReset s).txStep = s.txStep := rfl
@[simp] theorem engineReset_running : (engineReset s).running = s.running := rfl
@[simp] theorem engineReset_out : (engineReset s).out = s.out := rfl
@[simp] theorem engineReset_log : (engineReset s).log = s.log := rfl
@[simp] theorem engineReset_results : (engineReset s).results = s.results := rfl
@[simp] theorem engineReset_calls : (engineReset s).calls = s.calls := rfl
@[simp] theorem engineReset_answers : (engineReset s).answers = s.answers := rfl
@[simp] theorem engineReset_draws : (engineReset s).draws = s.draws := rfl
@[simp] theorem engineReset_gpioReports : (engineReset s).gpioReports = s.gpioReports := rfl

/-! `engineUpdate` -/
@[simp] theorem engineUpdate_crcReg (bs : List Byte) : (engineUpdate bs s).crcReg = crcBytes s.crcReg bs := rfl
@[simp] theorem engineUpdate_crcPhase (bs : List Byte) : (engineUpdate bs s).crcPhase = s.crcPhase := rfl
@[simp] theorem engineUpdate_f (bs : List Byte) : (engineUpdate bs s).f = s.f := rfl
@[simp] theorem engineUpdate_rxCrc (bs : List Byte) : (engineUpdate bs s).rxCrc = s.rxCrc := rfl
@[simp] theorem engineUpdate_calcCrc (bs : List Byte) : (engineUpdate bs s).calcCrc = s.calcCrc := rfl
@[simp] theorem engineUpdate_cs (bs : List Byte) : (engineUpdate bs s).cs = s.cs := rfl
@[simp] theorem engineUpdate_txStep (bs : List Byte) : (engineUpdate bs s).txStep = s.txStep := rfl
@[simp] theorem engineUpdate_running (bs : List Byte) : (engineUpdate bs s).running = s.running := rfl
@[simp] theorem engineUpdate_out (bs : List Byte) : (engineUpdate bs s).out = s.out := rfl
@[simp] theorem engineUpdate_log (bs : List Byte) : (engineUpdate bs s).log = s.log := rfl
@[simp] theorem engineUpdate_results (bs : List Byte) : (engineUpdate bs s).results = s.results := rfl
@[simp] theorem engineUpdate_calls (bs : List Byte) : (engineUpdate bs s).calls = s.calls := rfl
@[simp] theorem engineUpdate_answers (bs : List Byte) : (engineUpdate bs s).answers = s.answers := rfl
@[simp] theorem engineUpdate_draws (bs : List Byte) : (engineUpdate bs s).draws = s.draws := rfl
@[simp] theorem engineUpdate_gpioReports (bs : List Byte) : (engineUpdate bs s).gpioReports = s.gpioReports := rfl

/-! `engineFinish` -/
@[simp] theorem engineFinish_crcReg : (engineFinish s).crcReg = s.crcReg := rfl
@[simp] theorem engineFinish_crcPhase : (engineFinish s).crcPhase = .closed := rfl
@[simp] theorem engineFinish_f : (engineFinish s).f = s.f := rfl
@[simp] theorem engineFinish_rxCrc : (engineFinish s).rxCrc = s.rxCrc := rfl
@[simp] theorem engineFinish_calcCrc : (engineFinish s).calcCrc = s.calcCrc := rfl
@[simp] theorem engineFinish_cs : (engineFinish s).cs = s.cs := rfl
@[simp] theorem engineFinish_txStep : (engineFinish s).txStep = s.txStep := rfl
@[simp] theorem engineFinish_running : (engineFinish s).running = s.running := rfl
@[simp] theorem engineFinish_out : (engineFinish s).out = s.out := rfl
@[simp] theorem engineFinish_log : (engineFinish s).log = s.log := rfl
@[simp] theorem engineFinish_results : (engineFinish s).results = s.results := rfl
@[simp] theorem engineFinish_calls : (engineFinish s).calls = s.calls := rfl
@[simp] theorem engineFinish_answers : (engineFinish s).answers = s.answers := rfl
@[simp] theorem engineFinish_draws : (engineFinish s).draws = s.draws := rfl
@[simp] theorem engineFinish_gpioReports : (engineFinish s).gpioReports = s.gpioReports := rfl

/-! `engineRun` -/
@[simp] theorem engineRun_crcReg (bs : List Byte) : (engineRun bs s).crcReg = crc4 bs := rfl
@[simp] theorem engineRun_crcPhase (bs : List Byte) : (engineRun bs s).crcPhase = .closed := rfl
@[simp] theorem engineRun_f (bs : List Byte) : (engineRun bs s).f = s.f := rfl
@[simp] theorem engineRun_rxCrc (bs : List Byte) : (engineRun bs s).rxCrc = s.rxCrc := rfl
@[simp] theorem engineRun_calcCrc (bs : List Byte) : (engineRun bs s).calcCrc = s.calcCrc := rfl
@[simp] theorem engineRun_cs (bs : List Byte) : (engineRun bs s).cs = s.cs := rfl
@[simp] theorem engineRun_txStep (bs : List Byte) : (engineRun bs s).txStep = s.txStep := rfl
@[simp] theorem engineRun_running (bs : List Byte) : (engineRun bs s).running = s.running := rfl
@[simp] theorem engineRun_out (bs : List Byte) : (engineRun bs s).out = s.out := rfl
@[simp] theorem engineRun_log (bs : List Byte) : (engineRun bs s).log = s.log := rfl
@[simp] theorem engineRun_results (bs : List Byte) : (engineRun bs s).results = s.results := rfl
@[simp] theorem engineRun_calls (bs : List Byte) : (engineRun bs s).calls = s.calls := rfl
@[simp] theorem engineRun_answers (bs : List Byte) : (engineRun bs s).answers = s.answers := rfl
@[simp] theorem engineRun_draws (bs : List Byte) : (engineRun bs s).draws = s.draws := rfl
@[simp] theorem engineRun_gpioReports (bs : List Byte) : (engineRun bs s).gpioReports = s.gpioReports := rfl

/-! `deliver` -/
@[simp] theorem deliver_crcReg (r : OpResult) : (deliver r s).crcReg = s.crcReg := rfl
@[simp] theorem deliver_crcPhase (r : OpResult) : (deliver r s).crcPhase = s.crcPhase := rfl
@[simp] theorem deliver_f (r : OpResult) : (deliver r s).f = s.f := rfl
@[simp] theorem deliver_rxCrc (r : OpResult) : (deliver r s).rxCrc = s.rxCrc := rfl
@[simp] theorem deliver_calcCrc (r : OpResult) : (deliver r s).calcCrc = s.calcCrc := rfl
@[simp] theorem deliver_cs (r : OpResult) : (deliver r s).cs = s.cs := rfl
@[simp] theorem deliver_txStep (r : OpResult) : (deliver r s).txStep = s.txStep := rfl
@[simp] theorem deliver_running (r : OpResult) : (deliver r s).running = s.running := rfl
@[simp] theorem deliver_out (r : OpResult) : (deliver r s).out = s.out := rfl
@[simp] theorem deliver_log (r : OpResult) : (deliver r s).log = s.log := rfl
@[simp] theorem deliver_results (r : OpResult) : (deliver r s).results = s.results ++ [r] := rfl
@[simp] theorem deliver_calls (r : OpResult) : (deliver r s).calls = s.calls := rfl
@[simp] theorem deliver_answers (r : OpResult) : (deliver r s).answers = s.answers := rfl
@[simp] theorem deliver_draws (r : OpResult) : (deliver r s).draws = s.draws := rfl
@[simp] theorem deliver_gpioReports (r : OpResult) : (deliver r s).gpioReports = s.gpioReports := rfl

/-! `endOperation` -/
@[simp] theorem endOperation_crcReg (r : OpResult) : (endOperation r s).crcReg = s.crcReg := rfl
@[simp] theorem endOperation_crcPhase (r : OpResult) : (endOperation r s).crcPhase = s.crcPhase := rfl
@[simp] theorem endOperation_f (r : OpResult) : (endOperation r s).f = none := rfl
@[simp] theorem endOperation_rxCrc (r : OpResult) : (endOperation r s).rxCrc = none := rfl
@[simp] theorem endOperation_calcCrc (r : OpResult) : (endOperation r s).calcCrc = none := rfl
@[simp] theorem endOperation_cs (r : OpResult) : (endOperation r s).cs = s.cs := rfl
@[simp] theorem endOperation_txStep (r : OpResult) : (endOperation r s).txStep = .idle := rfl
@[simp] theorem endOperation_running (r : OpResult) : (endOperation r s).running = none := rfl
@[simp] theorem endOperation_out (r : OpResult) : (endOperation r s).out = none := rfl
@[simp] theorem endOperation_log (r : OpResult) : (endOperation r s).log = if s.running.isSome then s.log ++ [.result r] else s.log := rfl
@[simp] theorem endOperation_results (r : OpResult) : (endOperation r s).results = s.results ++ [r] := rfl
@[simp] theorem endOperation_calls (r : OpResult) : (endOperation r s).calls = s.calls := rfl
@[simp] theorem endOperation_answers (r : OpResult) : (endOperation r s).answers = s.answers := rfl
@[simp] theorem endOperation_draws (r : OpResult) : (endOperation r s).draws = s.draws := rfl
@[simp] theorem endOperation_gpioReports (r : OpResult) : (endOperation r s).gpioReports = s.gpioReports := rfl

/-! `csSet` -/
@[simp] theorem csSet_crcReg (l : CsLevel) : (csSet l s).crcReg = s.crcReg := rfl
@[simp] theorem csSet_crcPhase (l : CsLevel) : (csSet l s).crcPhase = s.crcPhase := rfl
@[simp] theorem csSet_f (l : CsLevel) : (csSet l s).f = s.f := rfl
@[simp] theorem csSet_rxCrc (l : CsLevel) : (csSet l s).rxCrc = s.rxCrc := rfl
@[simp] theorem csSet_calcCrc (l : CsLevel) : (csSet l s).calcCrc = s.calcCrc := rfl
@[simp] theorem csSet_cs (l : CsLevel) : (csSet l s).cs = l := rfl
@[simp] theorem csSet_txStep (l : CsLevel) : (csSet l s).txStep = s.txStep := rfl
@[simp] theorem csSet_running (l : CsLevel) : (csSet l s).running = s.running := rfl
@[simp] theorem csSet_out (l : CsLevel) : (csSet l s).out = s.out := rfl
@[simp] theorem csSet_log (l : CsLevel) : (csSet l s).log = s.log ++ [.csSet l] := rfl
@[simp] theorem csSet_results (l : CsLevel) : (csSet l s).results = s.results := rfl
@[simp] theorem csSet_calls (l : CsLevel) : (csSet l s).calls = s.calls := rfl
@[simp] theorem csSet_answers (l : CsLevel) : (csSet l s).answers = s.answers := rfl
@[simp] theorem csSet_draws (l : CsLevel) : (csSet l s).draws = s.draws := rfl
@[simp] theorem csSet_gpioReports (l : CsLevel) : (csSet l s).gpioReports = s.gpioReports.drop 1 := rfl

/-! `transferReturned` -/
@[simp] theorem transferReturned_crcReg (req : Frame) (o : XferOutcome) : (transferReturned req o s).crcReg = s.crcReg := rfl
@[simp] theorem transferReturned_crcPhase (req : Frame) (o : XferOutcome) : (transferReturned req o s).crcPhase = s.crcPhase := rfl
@[simp] theorem transferReturned_f (req : Frame) (o : XferOutcome) : (transferReturned req o s).f = match o with | .ok g => some g | .err _ => some req := rfl
@[simp] theorem transferReturned_rxCrc (req : Frame) (o : XferOutcome) : (transferReturned req o s).rxCrc = s.rxCrc := rfl
@[simp] theorem transferReturned_calcCrc (req : Frame) (o : XferOutcome) : (transferReturned req o s).calcCrc = s.calcCrc := rfl
@[simp] theorem transferReturned_cs (req : Frame) (o : XferOutcome) : (transferReturned req o s).cs = s.cs := rfl
@[simp] theorem transferReturned_txStep (req : Frame) (o : XferOutcome) : (transferReturned req o s).txStep = s.txStep := rfl
@[simp] theorem transferReturned_running (req : Frame) (o : XferOutcome) : (transferReturned req o s).running = s.running := rfl
@[simp] theorem transferReturned_out (req : Frame) (o : XferOutcome) : (transferReturned req o s).out = some o := rfl
@[simp] theorem transferReturned_log (req : Frame) (o : XferOutcome) : (transferReturned req o s).log = s.log ++ [.xfer req o] := rfl
@[simp] theorem transferReturned_results (req : Frame) (o : XferOutcome) : (transferReturned req o s).results = s.results := rfl
@[simp] theorem transferReturned_calls (req : Frame) (o : XferOutcome) : (transferReturned req o s).calls = s.calls := rfl
@[simp] theorem transferReturned_answers (req : Frame) (o : XferOutcome) : (transferReturned req o s).answers = s.answers.drop 1 := rfl
@[simp] theorem transferReturned_draws (req : Frame) (o : XferOutcome) : (transferReturned req o s).draws = s.draws + 1 := rfl
@[simp] theorem transferReturned_gpioReports (req : Frame) (o : XferOutcome) : (transferReturned req o s).gpioReports = s.gpioReports := rfl

/-! `extractCrc` -/
@[simp] theorem extractCrc_crcReg (g : Frame) : (extractCrc g s).crcReg = s.crcReg := rfl
@[simp] theorem extractCrc_crcPhase (g : Frame) : (extractCrc g s).crcPhase = s.crcPhase := rfl
@[simp] theorem extractCrc_f (g : Frame) : (extractCrc g s).f = some g.zeroCrc := rfl
@[simp] theorem extractCrc_rxCrc (g : Frame) : (extractCrc g s).rxCrc = some g.crcNibble := rfl
@[simp] theorem extractCrc_calcCrc (g : Frame) : (extractCrc g s).calcCrc = s.calcCrc := rfl
@[simp] theorem extractCrc_cs (g : Frame) : (extractCrc g s).cs = s.cs := rfl
@[simp] theorem extractCrc_txStep (g : Frame) : (extractCrc g s).txStep = s.txStep := rfl
@[simp] theorem extractCrc_running (g : Frame) : (extractCrc g s).running = s.running := rfl
@[simp] theorem extractCrc_out (g : Frame) : (extractCrc g s).out = s.out := rfl
@[simp] theorem extractCrc_log (g : Frame) : (extractCrc g s).log = s.log := rfl
@[simp] theorem extractCrc_results (g : Frame) : (extractCrc g s).results = s.results := rfl
@[simp] theorem extractCrc_calls (g : Frame) : (extractCrc g s).calls = s.calls := rfl
@[simp] theorem extractCrc_answers (g : Frame) : (extractCrc g s).answers = s.answers := rfl
@[simp] theorem extractCrc_draws (g : Frame) : (extractCrc g s).draws = s.draws := rfl
@[simp] theorem extractCrc_gpioReports (g : Frame) : (extractCrc g s).gpioReports = s.gpioReports := rfl

/-! `recomputeCrc` -/
@[simp] theorem recomputeCrc_crcReg (g : Frame) : (recomputeCrc g s).crcReg = crc4 g.bytes := rfl
@[simp] theorem recomputeCrc_crcPhase (g : Frame) : (recomputeCrc g s).crcPhase = .closed := rfl
@[simp] theorem recomputeCrc_f (g : Frame) : (recomputeCrc g s).f = s.f := rfl
@[simp] theorem recomputeCrc_rxCrc (g : Frame) : (recomputeCrc g s).rxCrc = s.rxCrc := rfl
@[simp] theorem recomputeCrc_calcCrc (g : Frame) : (recomputeCrc g s).calcCrc = some (crcOutput (crc4 g.bytes)) := rfl
@[simp] theorem recomputeCrc_cs (g : Frame) : (recomputeCrc g s).cs = s.cs := rfl
@[simp] theorem recomputeCrc_txStep (g : Frame) : (recomputeCrc g s).txStep = s.txStep := rfl
@[simp] theorem recomputeCrc_running (g : Frame) : (recomputeCrc g s).running = s.running := rfl
@[simp] theorem recomputeCrc_out (g : Frame) : (recomputeCrc g s).out = s.out := rfl
@[simp] theorem recomputeCrc_log (g : Frame) : (recomputeCrc g s).log = s.log := rfl
@[simp] theorem recomputeCrc_results (g : Frame) : (recomputeCrc g s).results = s.results := rfl
@[simp] theorem recomputeCrc_calls (g : Frame) : (recomputeCrc g s).calls = s.calls := rfl
@[simp] theorem recomputeCrc_answers (g : Frame) : (recomputeCrc g s).answers = s.answers := rfl
@[simp] theorem recomputeCrc_draws (g : Frame) : (recomputeCrc g s).draws = s.draws := rfl
@[simp] theorem recomputeCrc_gpioReports (g : Frame) : (recomputeCrc g s).gpioReports = s.gpioReports := rfl

/-! `beginTransaction` -/
@[simp] theorem beginTransaction_crcReg (t : Transaction) : (beginTransaction t s).crcReg = s.crcReg := rfl
@[simp] theorem beginTransaction_crcPhase (t : Transaction) : (beginTransaction t s).crcPhase = s.crcPhase := rfl
@[simp] theorem beginTransaction_f (t : Transaction) : (beginTransaction t s).f = none := rfl
@[simp] theorem beginTransaction_rxCrc (t : Transaction) : (beginTransaction t s).rxCrc = none := rfl
@[simp] theorem beginTransaction_calcCrc (t : Transaction) : (beginTransaction t s).calcCrc = none := rfl
@[simp] theorem beginTransaction_cs (t : Transaction) : (beginTransaction t s).cs = s.cs := rfl
@[simp] theorem beginTransaction_txStep (t : Transaction) : (beginTransaction t s).txStep = .s1 := rfl
@[simp] theorem beginTransaction_running (t : Transaction) : (beginTransaction t s).running = some t := rfl
@[simp] theorem beginTransaction_out (t : Transaction) : (beginTransaction t s).out = none := rfl
@[simp] theorem beginTransaction_log (t : Transaction) : (beginTransaction t s).log = s.log := rfl
@[simp] theorem beginTransaction_results (t : Transaction) : (beginTransaction t s).results = s.results := rfl
@[simp] theorem beginTransaction_calls (t : Transaction) : (beginTransaction t s).calls = s.calls := rfl
@[simp] theorem beginTransaction_answers (t : Transaction) : (beginTransaction t s).answers = s.answers := rfl
@[simp] theorem beginTransaction_draws (t : Transaction) : (beginTransaction t s).draws = s.draws := rfl
@[simp] theorem beginTransaction_gpioReports (t : Transaction) : (beginTransaction t s).gpioReports = s.gpioReports := rfl

/-! `withCall` -/
@[simp] theorem withCall_crcReg (c : Call) : (s.withCall c).crcReg = s.crcReg := rfl
@[simp] theorem withCall_crcPhase (c : Call) : (s.withCall c).crcPhase = s.crcPhase := rfl
@[simp] theorem withCall_f (c : Call) : (s.withCall c).f = none := rfl
@[simp] theorem withCall_rxCrc (c : Call) : (s.withCall c).rxCrc = none := rfl
@[simp] theorem withCall_calcCrc (c : Call) : (s.withCall c).calcCrc = none := rfl
@[simp] theorem withCall_cs (c : Call) : (s.withCall c).cs = s.cs := rfl
@[simp] theorem withCall_txStep (c : Call) : (s.withCall c).txStep = .idle := rfl
@[simp] theorem withCall_running (c : Call) : (s.withCall c).running = none := rfl
@[simp] theorem withCall_out (c : Call) : (s.withCall c).out = none := rfl
@[simp] theorem withCall_log (c : Call) : (s.withCall c).log = s.log := rfl
@[simp] theorem withCall_results (c : Call) : (s.withCall c).results = s.results := rfl
@[simp] theorem withCall_calls (c : Call) : (s.withCall c).calls = c :: s.calls := rfl
@[simp] theorem withCall_answers (c : Call) : (s.withCall c).answers = s.answers := rfl
@[simp] theorem withCall_draws (c : Call) : (s.withCall c).draws = s.draws := rfl
@[simp] theorem withCall_gpioReports (c : Call) : (s.withCall c).gpioReports = s.gpioReports := rfl

end Updates

end Sys2Proof.Machine
end

