-- ==== Sys2Proof/Laws/Transactions.lean ====
section
/-! SUPPORT. What the shared operations do, once: CRC insertion, the end of an operation, and a whole transaction. -/

namespace Sys2Proof.Machine

/-- `insert_crc`: the frame with its CRC, and the engine after one whole computation. -/
theorem insertCrc_eq (f : Frame) (s : State) :
    insertCrc f s = (f.orCrc (crc4 f.bytes), { s with crcReg := crc4 f.bytes, crcPhase := .closed }) := by
  simp [insertCrc, engineRun, engineFinish, engineUpdate, engineReset, crc4]

/-- A running transaction that ends with `r`. -/
theorem endOperation_ofRunning (r : OpResult) (s : State) (h : s.running.isSome = true) :
    endOperation r s =
      { s with
        log := s.log ++ [.result r], results := s.results ++ [r], txStep := .idle, running := none, f := none,
        out := none, rxCrc := none, calcCrc := none } := by
  simp [endOperation, deliver, h]

/-- The state before S4: the request is in the buffer and chip-select is Low. -/
theorem txRun_three (t : Transaction) (s : State) :
    txRun 3 (beginTransaction t s) = hung s t (requestOf t) := by
  have hreq : t.layout.orCrc (embeddedCrc (requestOf t)) = requestOf t := by rw [← crc4_layout, layout_sealed]
  simp only [txRun, txAdvance, txS1, txS2, txS3, beginTransaction, insertCrc_eq, crc4_layout, hreq, csSet, hung]

/-- No decode function reads byte 3 (42_response_validator.md R144, R147). -/
@[simp] theorem txDecode_zeroCrc (t : Transaction) (g : Frame) : txDecode t g.zeroCrc = txDecode t g := by
  cases t <;> rfl

theorem txRun_add (m n : Nat) (s : State) : txRun (m + n) s = txRun n (txRun m s) := by
  induction m generalizing s with
  | zero => simp [txRun]
  | succ m ih => rw [Nat.succ_add, txRun, ih, txRun]

@[simp] theorem nextAnswer_hung (s : State) (t : Transaction) (req req' : Frame) :
    (hung s t req).nextAnswer req' = s.nextAnswer req' := rfl

/-- From S4 on, for each answer of the transport. -/
theorem txRun_five (t : Transaction) (s : State) (req : Frame) :
    txRun 5 (hung s t req) = afterTransaction s t req (txDecode t) := by
  unfold afterTransaction
  cases h : s.nextAnswer req with
  | neverReturns =>
    have hstay : txAdvance (hung s t req) = hung s t req := by
      simp only [txAdvance, hung, txS4]
      split <;> simp_all [State.nextAnswer]
    simp only [txRun, hstay]
  | returns out =>
    have hS4 : txAdvance (hung s t req) = { transferReturned req out (hung s t req) with txStep := .s5 } := by
      have h' := nextAnswer_hung s t req req
      rw [h] at h'
      show txS4 (hung s t req) = _
      unfold txS4
      show (match (hung s t req).nextAnswer req with
        | .returns out => { transferReturned req out (hung s t req) with txStep := .s5 }
        | .neverReturns => hung s t req) = _
      rw [h']
    rw [show (5 : Nat) = 4 + 1 from rfl, txRun, hS4]
    cases out with
    | err e =>
      simp [txRun, txAdvance, txS5, transferReturned, csSet, raise, endOperation, deliver, hung, returned]
    | ok g =>
      simp only [txRun, txAdvance, txS5, txS6, txS7, txS8, transferReturned, csSet, extractCrc, recomputeCrc, engineRun,
        engineFinish, engineUpdate, engineReset, checkCrc, hung]
      have hk : crcBytes Config.crcInit g.zeroCrc.bytes = responseCrc g := rfl
      simp only [hk, crcOutput_eq, crcNibble_eq, crcMatches_iff]
      split <;> simp [raise, endOperation, deliver, returned, *]

/-- Everything a transaction does (43_transactions.md R161). -/
theorem transaction_eq (t : Transaction) (s : State) :
    transaction t s = afterTransaction s t (requestOf t) (txDecode t) := by
  rw [transaction, show (8 : Nat) = 3 + 5 from rfl, txRun_add, txRun_three, txRun_five]

end Sys2Proof.Machine
end

