-- ==== Sys2Proof/Laws/Exec.lean ====
section
/-! SUPPORT. What the meanings and the step do, over the shared operations' laws: built frames, VALIDATE,
transactions, a running transaction's step. -/

namespace Sys2Proof.Machine

theorem sealedFrame_embeddedCrc (b0 b1 b2 : Byte) (c : Nibble) :
    embeddedCrc (sealedFrame b0 b1 b2 c) = crc4 [b0, b1, b2, c ++ 0x0#4] := sealedFrame_crcNibble ..

theorem sealedFrame_responseCrc (b0 b1 b2 : Byte) (c : Nibble) :
    responseCrc (sealedFrame b0 b1 b2 c) = crc4 [b0, b1, b2, c ++ 0x0#4] := by
  rw [← crc4_zeroCrc, sealedFrame_zeroCrc_bytes]

/-- A FRAME_* operation from its layout: the frame the transaction of that layout would send. -/
theorem buildFrame_layout (t : Transaction) (s : State) :
    buildFrame t.layout s =
      { s with
        crcReg := embeddedCrc (requestOf t), crcPhase := .closed
        results := s.results ++ [.ok (.frame (requestOf t))] } := by
  have h := layout_sealed t
  rw [crc4_layout] at h
  simp only [buildFrame, insertCrc_eq, deliver, crc4_layout, h]

/-- S8 over a completed recomputation, whatever the buffer and the transients hold. -/
theorem execValidate_eq (g : Frame) (s : State) :
    execValidate g s = .next (endOperation
      (if responseCrc g = embeddedCrc g then .ok (.frame g.zeroCrc) else .err .integrityFault)
      { s with crcReg := responseCrc g, crcPhase := .closed }) := by
  have hk : crcBytes Config.crcInit g.zeroCrc.bytes = responseCrc g := rfl
  simp only [execValidate, recomputeCrc, extractCrc, engineRun, engineFinish, engineUpdate, engineReset, hk,
    crcOutput_eq, checkCrc, crcMatches_iff, crcNibble_eq]
  split <;> simp [raise, endOperation, deliver]

/-- Everything a transaction operation does. -/
theorem exec_transaction (t : Transaction) (s : State) :
    exec t.instr s = .next (afterTransaction s t (requestOf t) (txDecode t)) := by
  rw [← transaction_eq]
  cases t <;> rfl

/-- A running transaction: one protocol step, or the reason there is none. -/
theorem step_of_running (s : State) (h : s.txStep ≠ .idle) :
    step s = match txFault s with
      | some r => .fault r
      | none => .next (txAdvance s) := by
  unfold step State.turn
  cases hs : s.txStep <;> simp_all <;> cases txFault s <;> rfl

/-- At Idle: rest, a refusal by the grammar, or the operation the next call stands for. -/
theorem step_of_idle (s : State) (h : s.txStep = .idle) :
    step s = match s.calls with
      | [] => .next s
      | c :: rest => match c.resolve with
        | .error e => .refused (refusalOf e)
        | .ok i => exec i { s with calls := rest } := by
  unfold step State.turn
  simp only [h]
  cases s.calls with
  | nil => rfl
  | cons c rest => cases hc : c.resolve <;> simp only [hc]

/-- How a transaction ends: hung, or returned. -/
theorem afterTransaction_cases (s : State) (t : Transaction) :
    (s.nextAnswer (requestOf t) = .neverReturns ∧
        afterTransaction s t (requestOf t) (txDecode t) = hung s t (requestOf t)) ∨
    ∃ out k r, afterTransaction s t (requestOf t) (txDecode t) = returned s (requestOf t) out k r := by
  unfold afterTransaction
  cases h : s.nextAnswer (requestOf t) with
  | neverReturns => exact .inl ⟨rfl, rfl⟩
  | returns o => cases o <;> exact .inr ⟨_, _, _, rfl⟩

/-- Every next state of an operation: a transaction's, or one that differs in the engine and the results alone, or
VALIDATE's end of an operation after the engine has run. -/
theorem exec_cases (i : Instr) (s s' : State) (h : exec i s = .next s') :
    (∃ t, i = Transaction.instr t ∧ s' = afterTransaction s t (requestOf t) (txDecode t)) ∨
    (∃ k p r, s' = { s with crcReg := k, crcPhase := p, results := s.results ++ [r] }) ∨
    (∃ k p r, s' = endOperation r { s with crcReg := k, crcPhase := p }) := by
  cases i with
  | crcReset => cases h; exact .inr (.inl ⟨_, _, _, rfl⟩)
  | crcUpdate bs => simp only [exec, execCrcUpdate] at h; split at h <;> cases h; exact .inr (.inl ⟨_, _, _, rfl⟩)
  | crcFinish => simp only [exec, execCrcFinish] at h; split at h <;> cases h; exact .inr (.inl ⟨_, _, _, rfl⟩)
  | frameWrite r v c => cases h; exact .inr (.inl ⟨_, _, _, rfl⟩)
  | frameRead r c => cases h; exact .inr (.inl ⟨_, _, _, rfl⟩)
  | frameSpecial c => cases h; exact .inr (.inl ⟨_, _, _, rfl⟩)
  | validate g => exact .inr (.inr ⟨_, _, _, (Host.Outcome.next.inj ((execValidate_eq g s).symm.trans h)).symm⟩)
  | decodeReg g => cases h; exact .inr (.inl ⟨_, _, _, rfl⟩)
  | decodeRegS16 g => cases h; exact .inr (.inl ⟨_, _, _, rfl⟩)
  | decodeDual g => cases h; exact .inr (.inl ⟨_, _, _, rfl⟩)
  | addrEncode r => cases h; exact .inr (.inl ⟨_, _, _, rfl⟩)
  | addrDecode r => cases h; exact .inr (.inl ⟨_, _, _, rfl⟩)
  | writeReg r v c =>
    exact .inl ⟨.writeReg r v c, rfl, (Host.Outcome.next.inj ((exec_transaction (.writeReg r v c) s).symm.trans h)).symm⟩
  | readReg r c =>
    exact .inl ⟨.readReg r c, rfl, (Host.Outcome.next.inj ((exec_transaction (.readReg r c) s).symm.trans h)).symm⟩
  | readRegS16 r c =>
    exact .inl ⟨.readRegS16 r c, rfl, (Host.Outcome.next.inj ((exec_transaction (.readRegS16 r c) s).symm.trans h)).symm⟩
  | specialRead c =>
    exact .inl ⟨.specialRead c, rfl, (Host.Outcome.next.inj ((exec_transaction (.specialRead c) s).symm.trans h)).symm⟩

/-- Every next state of a step: rest, one whole operation, or one protocol step. -/
theorem step_cases (s s' : State) (h : step s = .next s') :
    (s.txStep = .idle ∧ s.calls = [] ∧ s' = s) ∨
    (s.txStep = .idle ∧ ∃ c rest i, s.calls = c :: rest ∧ exec i { s with calls := rest } = .next s') ∨
    (s.txStep ≠ .idle ∧ txFault s = none ∧ s' = txAdvance s) := by
  by_cases hi : s.txStep = .idle
  · rw [step_of_idle s hi] at h
    cases hc : s.calls with
    | nil => rw [hc] at h; cases h; exact .inl ⟨hi, rfl, rfl⟩
    | cons c rest =>
      rw [hc] at h; simp only at h
      cases hr : c.resolve with
      | error e => rw [hr] at h; cases h
      | ok i => rw [hr] at h; exact .inr (.inl ⟨hi, c, rest, i, rfl, h⟩)
  · rw [step_of_running s hi] at h
    cases hf : txFault s with
    | some r => rw [hf] at h; cases h
    | none => rw [hf] at h; cases h; exact .inr (.inr ⟨hi, rfl, rfl⟩)

end Sys2Proof.Machine
end

