-- ==== Sys2Proof/Laws/PerInstr.lean ====
section
/-! SUPPORT. Statements for all operations, one lemma per constructor of `Instr`. -/

namespace Sys2Proof.Laws.CallResolves

/-- The call that writes an operation out in full stands for that operation (30_encoding.md R68). -/
def Statement (i : Instr) : Prop := i.call.resolve = .ok i

theorem resolveCommand_written (c : Nibble) : resolveCommand (some c.toNat) = .ok c := by
  revert c; decide

theorem crcReset : Statement .crcReset := rfl
theorem crcUpdate (bs : List Byte) : Statement (.crcUpdate bs) := rfl
theorem crcFinish : Statement .crcFinish := rfl
theorem frameWrite (r : Register) (v : Half) (c : Nibble) : Statement (.frameWrite r v c) := by
  simp [Statement, Instr.call, Call.resolve, resolveOperands, resolveRegister, resolveCommand_written]
theorem frameRead (r : Register) (c : Nibble) : Statement (.frameRead r c) := by
  simp [Statement, Instr.call, Call.resolve, resolveOperands, resolveRegister, resolveCommand_written]
theorem frameSpecial (c : Nibble) : Statement (.frameSpecial c) := by
  simp [Statement, Instr.call, Call.resolve, resolveCommandOnly, resolveCommand_written]
theorem validate (g : Frame) : Statement (.validate g) := rfl
theorem decodeReg (g : Frame) : Statement (.decodeReg g) := rfl
theorem decodeRegS16 (g : Frame) : Statement (.decodeRegS16 g) := rfl
theorem decodeDual (g : Frame) : Statement (.decodeDual g) := rfl
theorem writeReg (r : Register) (v : Half) (c : Nibble) : Statement (.writeReg r v c) := by
  simp [Statement, Instr.call, Call.resolve, resolveOperands, resolveRegister, resolveCommand_written]
theorem readReg (r : Register) (c : Nibble) : Statement (.readReg r c) := by
  simp [Statement, Instr.call, Call.resolve, resolveOperands, resolveRegister, resolveCommand_written]
theorem readRegS16 (r : Register) (c : Nibble) : Statement (.readRegS16 r c) := by
  simp [Statement, Instr.call, Call.resolve, resolveOperands, resolveRegister, resolveCommand_written]
theorem specialRead (c : Nibble) : Statement (.specialRead c) := by
  simp [Statement, Instr.call, Call.resolve, resolveCommandOnly, resolveCommand_written]
theorem addrEncode (r : Register) : Statement (.addrEncode r) := rfl
theorem addrDecode (code : Addr7) : Statement (.addrDecode code) := rfl

end Sys2Proof.Laws.CallResolves
end

