-- ==== Sys2Proof/Laws/Results.lean ====
section
/-! SUPPORT. The results of the decode functions as arithmetic (42_response_validator.md R144, R145, R147). -/

namespace Sys2Proof

theorem regValue_eq_append (g : Frame) : regValue g = g.b1 ++ g.b2 := by
  apply BitVec.eq_of_getLsbD_eq
  intro i hi
  simp only [regValue, BitVec.getLsbD_or, BitVec.getLsbD_shiftLeft, BitVec.truncate_eq_setWidth,
    BitVec.getLsbD_setWidth, BitVec.getLsbD_append]
  by_cases h8 : i < 8 <;> simp [h8, hi]
  simp [show i - 8 < 16 by omega, BitVec.getLsbD_of_ge g.b2 i (by omega)]

theorem regValue_toNat (g : Frame) : (regValue g).toNat = 256 * g.b1.toNat + g.b2.toNat := by
  rw [regValue_eq_append, BitVec.toNat_append, Nat.shiftLeft_eq, Nat.mul_comm,
    ← Nat.two_pow_add_eq_or_of_lt g.b2.isLt]

theorem asS16_toInt (u : Half) : asS16 u = u.toInt := by
  rw [asS16, BitVec.toInt_eq_toNat_cond]
  have := u.isLt
  split <;> split <;> omega

/-- A byte in bits 11 to 4 with a nibble's value in bits 3 to 0. -/
theorem twelveBits_toNat (hi lo : Byte) (h : lo.toNat < 16) :
    ((hi.zeroExtend 16 <<< 4 : Half) ||| lo.zeroExtend 16).toNat = 16 * hi.toNat + lo.toNat := by
  have := hi.isLt
  simp only [BitVec.toNat_or, BitVec.toNat_shiftLeft, BitVec.truncate_eq_setWidth, BitVec.toNat_setWidth]
  have e1 : hi.toNat % 2 ^ 16 * 2 ^ 4 % 2 ^ 16 = hi.toNat * 2 ^ 4 := by omega
  have e2 : lo.toNat % 2 ^ 16 = lo.toNat := by omega
  rw [Nat.shiftLeft_eq, e1, e2, Nat.mul_comm, ← Nat.two_pow_add_eq_or_of_lt (by omega)]

theorem lowNibble_toNat (b : Byte) : (b &&& 0x0F#8).toNat = b.toNat % 16 := by revert b; decide

theorem highNibble_toNat (b : Byte) : (b >>> 4).toNat = b.toNat / 16 := by revert b; decide

theorem dualFirst_toNat (g : Frame) : (dualFirst g).toNat = 16 * g.b1.toNat + g.b2.toNat % 16 := by
  rw [dualFirst, twelveBits_toNat _ _ (by rw [lowNibble_toNat]; omega), lowNibble_toNat]

theorem dualSecond_toNat (g : Frame) : (dualSecond g).toNat = 16 * g.b0.toNat + g.b2.toNat / 16 := by
  have := g.b2.isLt
  rw [dualSecond, twelveBits_toNat _ _ (by rw [highNibble_toNat]; omega), highNibble_toNat]

end Sys2Proof
end

