-- ==== Sys2Proof/Machine/Assembler.lean ====
section
/-! DEFINITION. The written syntax of 30_encoding.md R76: a mnemonic and its operands separated by commas, the
command as `cmd=<hex>`, registers by their symbolic names, numbers in hexadecimal with `0x`, `;` between
operations, `--` before a comment. The names are labels only (92_eei_decisions.md D18). A text is read into calls. -/

namespace Sys2Proof

/-- The 16 mnemonics (30_encoding.md R71). -/
def Opcode.mnemonic : Opcode → String
  | .crcReset => "CRC_RESET"
  | .crcUpdate => "CRC_UPDATE"
  | .crcFinish => "CRC_FINISH"
  | .frameWrite => "FRAME_WRITE"
  | .frameRead => "FRAME_READ"
  | .frameSpecial => "FRAME_SPECIAL"
  | .validate => "VALIDATE"
  | .decodeReg => "DECODE_REG"
  | .decodeRegS16 => "DECODE_REG_S16"
  | .decodeDual => "DECODE_DUAL"
  | .writeReg => "WRITE_REG"
  | .readReg => "READ_REG"
  | .readRegS16 => "READ_REG_S16"
  | .specialRead => "SPECIAL_READ"
  | .addrEncode => "ADDR_ENCODE"
  | .addrDecode => "ADDR_DECODE"

/-- The operations in the order of 30_encoding.md R71. -/
def allOpcodes : List Opcode :=
  [.crcReset, .crcUpdate, .crcFinish, .frameWrite, .frameRead, .frameSpecial, .validate, .decodeReg,
   .decodeRegS16, .decodeDual, .writeReg, .readReg, .readRegS16, .specialRead, .addrEncode, .addrDecode]

/-- The symbolic register names (44_register_address_decoder.md R190). -/
def Register.name : Register → String
  | .deviceConfig => "DEVICE_CONFIG"
  | .sensorConfig => "SENSOR_CONFIG"
  | .systemConfig => "SYSTEM_CONFIG"
  | .alertConfig => "ALERT_CONFIG"
  | .xThrxConfig => "X_THRX_CONFIG"
  | .yThrxConfig => "Y_THRX_CONFIG"
  | .zThrxConfig => "Z_THRX_CONFIG"
  | .tThrxConfig => "T_THRX_CONFIG"
  | .convStatus => "CONV_STATUS"
  | .xChResult => "X_CH_RESULT"
  | .yChResult => "Y_CH_RESULT"
  | .zChResult => "Z_CH_RESULT"
  | .tempResult => "TEMP_RESULT"
  | .afeStatus => "AFE_STATUS"
  | .sysStatus => "SYS_STATUS"
  | .testConfig => "TEST_CONFIG"
  | .oscMonitor => "OSC_MONITOR"
  | .magGainConfig => "MAG_GAIN_CONFIG"
  | .angleResult => "ANGLE_RESULT"
  | .magnitudeResult => "MAGNITUDE_RESULT"

/-- A lexical token. -/
inductive Token where
  | word (cs : List Char)
  | comma
  | semicolon
  | openBracket
  | closeBracket
deriving DecidableEq, Repr

/-- The word read so far, if any, before the tokens that follow. -/
def flushWord (cur : List Char) (rest : List Token) : List Token :=
  if cur.isEmpty then rest else .word cur.reverse :: rest

/-- The tokens of a text; `comment` while inside a comment, `cur` the current word reversed. Blanks separate words, and
the line's end, `;` and `--` each end an operation. DESIGN CHOICE (log entry 16). -/
def tokens (comment : Bool) (cur : List Char) : List Char → List Token
  | [] => flushWord cur []
  | ch :: cs =>
    if comment then tokens (ch != '\n') [] cs
    else match ch with
      | ',' => flushWord cur (.comma :: tokens false [] cs)
      | ';' => flushWord cur (.semicolon :: tokens false [] cs)
      | '[' => flushWord cur (.openBracket :: tokens false [] cs)
      | ']' => flushWord cur (.closeBracket :: tokens false [] cs)
      | ' ' => flushWord cur (tokens false [] cs)
      | '\n' => flushWord cur (.semicolon :: tokens false [] cs)
      | '-' => if cs.head? = some '-' then flushWord cur (.semicolon :: tokens true [] cs) else tokens false (ch :: cur) cs
      | _ => tokens false (ch :: cur) cs

/-- A hexadecimal digit, in either case. DESIGN CHOICE (log entry 16). -/
def hexDigit (ch : Char) : Option Nat :=
  if '0' ≤ ch ∧ ch ≤ '9' then some (ch.toNat - '0'.toNat)
  else if 'A' ≤ ch ∧ ch ≤ 'F' then some (ch.toNat - 'A'.toNat + 10)
  else if 'a' ≤ ch ∧ ch ≤ 'f' then some (ch.toNat - 'a'.toNat + 10)
  else none

/-- Hexadecimal digits after the value `acc`. -/
def hexDigits (acc : Nat) : List Char → Option Nat
  | [] => some acc
  | ch :: cs => match hexDigit ch with
    | some d => hexDigits (16 * acc + d) cs
    | none => none

/-- A number "in hexadecimal with `0x`" (30_encoding.md R76). -/
def hexNumber : List Char → Option Nat
  | '0' :: 'x' :: d :: cs => hexDigits 0 (d :: cs)
  | _ => none

/-- A number that fits `w` bits (00_scope.md R10). -/
def hexBits (w : Nat) (cs : List Char) : Option (BitVec w) :=
  match hexNumber cs with
  | some n => if n < 2 ^ w then some (BitVec.ofNat w n) else none
  | none => none

/-- An operand as written, or a comma. -/
inductive Item where
  | word (cs : List Char)
  | bytes (bs : List Byte)
  | comma
deriving DecidableEq, Repr

/-- Brackets around bytes are gathered into one item. 30_encoding.md R76 shows such a list in an example only, with a
comma between its bytes: here commas inside brackets are passed over, so that bytes may also be separated by blanks
alone and commas may be repeated, lead or trail. A frame operand is written as such a list of its four bytes.
DESIGN CHOICE (log entry 16). -/
def items (inside : Option (List Byte)) : List Token → Option (List Item)
  | [] => match inside with
    | none => some []
    | some _ => none
  | t :: ts =>
    match inside, t with
    | none, .word cs => (items none ts).map (.word cs :: ·)
    | none, .comma => (items none ts).map (.comma :: ·)
    | none, .openBracket => items (some []) ts
    | some bs, .word cs => match hexBits 8 cs with
      | some b => items (some (bs ++ [b])) ts
      | none => none
    | some bs, .comma => items (some bs) ts
    | some bs, .closeBracket => (items none ts).map (.bytes bs :: ·)
    | _, _ => none

/-- Operands separated by commas. -/
def commaSeparated : List Item → Option (List Item)
  | [] => some []
  | [.comma] => none
  | [x] => some [x]
  | .comma :: _ => none
  | x :: .comma :: y :: rest => (commaSeparated (y :: rest)).map (x :: ·)
  | _ :: _ :: _ => none

/-- The command of a `cmd=<hex>` operand (30_encoding.md R76). -/
def commandItem : Item → Option Nat
  | .word ('c' :: 'm' :: 'd' :: '=' :: cs) => hexNumber cs
  | _ => none

/-- The operands before the command, and the command if it is written (30_encoding.md R69, R76). Only the last operand
is read as the command. DESIGN CHOICE (log entry 16). -/
def splitCommand (xs : List Item) : List Item × Option Nat :=
  match xs.getLast? with
  | some x => match commandItem x with
    | some n => (xs.dropLast, some n)
    | none => (xs, none)
  | none => (xs, none)

/-- A register operand: a symbolic name, or a raw code. -/
def registerItem : Item → Option RegOperand
  | .word cs => match allRegisters.find? fun r => r.name.toList == cs with
    | some r => some (.name r)
    | none => (hexBits 7 cs).map .code
  | _ => none

/-- A number operand of `w` bits. -/
def numberItem (w : Nat) : Item → Option (BitVec w)
  | .word cs => hexBits w cs
  | _ => none

/-- A frame operand. -/
def frameItem : Item → Option Frame
  | .bytes bs => Frame.ofBytes bs
  | _ => none

/-- The call of an operation from its written operands and command. -/
def callOf (op : Opcode) (xs : List Item) (cmd : Option Nat) : Option Call :=
  match op, xs, cmd with
  | .crcReset, [], none => some .crcReset
  | .crcUpdate, [.bytes bs], none => some (.crcUpdate bs)
  | .crcFinish, [], none => some .crcFinish
  | .frameWrite, [r, v], cmd => match registerItem r, numberItem 16 v with
    | some r, some v => some (.frameWrite r v cmd)
    | _, _ => none
  | .frameRead, [r], cmd => (registerItem r).map (.frameRead · cmd)
  | .frameSpecial, [], cmd => some (.frameSpecial cmd)
  | .validate, [g], none => (frameItem g).map .validate
  | .decodeReg, [g], none => (frameItem g).map .decodeReg
  | .decodeRegS16, [g], none => (frameItem g).map .decodeRegS16
  | .decodeDual, [g], none => (frameItem g).map .decodeDual
  | .writeReg, [r, v], cmd => match registerItem r, numberItem 16 v with
    | some r, some v => some (.writeReg r v cmd)
    | _, _ => none
  | .readReg, [r], cmd => (registerItem r).map (.readReg · cmd)
  | .readRegS16, [r], cmd => (registerItem r).map (.readRegS16 · cmd)
  | .specialRead, [], cmd => some (.specialRead cmd)
  | .addrEncode, [r], none => (registerItem r).map .addrEncode
  | .addrDecode, [a], none => (numberItem 7 a).map .addrDecode
  | _, _, _ => none

/-- The pseudo-operations by name (30_encoding.md R78). -/
def pseudoOps : List (String × (Half → Call)) :=
  [("TRIGGER_CONVERSION", .triggerConversion), ("APPLY_DEVICE_CONFIG", .applyDeviceConfig),
   ("APPLY_SENSOR_CONFIG", .applySensorConfig), ("APPLY_SYSTEM_CONFIG", .applySystemConfig),
   ("APPLY_ALERT_CONFIG", .applyAlertConfig)]

/-- One written operation. -/
def parseCall (ts : List Token) : Option Call :=
  match ts with
  | .word m :: rest =>
    match (items none rest).bind commaSeparated with
    | none => none
    | some xs =>
      match allOpcodes.find? fun op => op.mnemonic.toList == m with
      | some op => callOf op (splitCommand xs).1 (splitCommand xs).2
      | none =>
        match pseudoOps.find? fun p => p.1.toList == m, xs with
        | some p, [v] => (numberItem 16 v).map p.2
        | _, _ => none
  | _ => none

/-- The tokens between semicolons; `cur` the current group reversed, empty groups dropped. -/
def groups (cur : List Token) : List Token → List (List Token)
  | [] => if cur.isEmpty then [] else [cur.reverse]
  | .semicolon :: ts => if cur.isEmpty then groups [] ts else cur.reverse :: groups [] ts
  | t :: ts => groups (t :: cur) ts

/-- The calls a text writes, if all of it can be read. -/
def assemble (text : List Char) : Option (List Call) :=
  (groups [] (tokens false [] text)).mapM parseCall

/-- `s` with the calls of a text after the caller's other calls. -/
def Machine.State.withProgram (s : Machine.State) (text : List Char) : Option Machine.State :=
  (assemble text).map fun cs => { s with calls := s.calls ++ cs }

end Sys2Proof
end

