-- ==== Sys2Proof/Tests/Slice0.lean ====
section
/-! SUPPORT. The model's own tests. Expected values stand in spec/: the vectors V-… of 95_test_vectors.md, the tables
and the examples of the rules. The witnesses at the end meet the hypotheses of the obligations. -/

namespace Sys2Proof.Tests

open Sys2Proof.Machine

set_option maxRecDepth 20000

/-- A state at rest whose next transfers get these answers. -/
def atRest (answers : List Answer) : State := { State.constructed 0x0#4 .high with answers := answers }

/-- A response that the transport returns. -/
def ok (b0 b1 b2 b3 : Byte) : Answer := .returns (.ok ⟨b0, b1, b2, b3⟩)

/-- An error of the transport. -/
def e0 : TransportError := ⟨0, rfl⟩

/-- A transfer that fails. -/
def failed : Answer := .returns (.err e0)

/-- An engine with an open computation. -/
def openEngine (k : Nibble) : State := { atRest [] with crcReg := k, crcPhase := .opened }

/-- The next state of an outcome. -/
def after : Host.Outcome State Fault Refusal → Option State
  | .next s => some s
  | _ => none

/-- The refusal of an outcome. -/
def refused : Host.Outcome State Fault Refusal → Option Refusal
  | .refused r => some r
  | _ => none

/-- The results and the engine after one operation. -/
def effect (i : Instr) (s : State) : Option (List OpResult × Nibble × CrcPhase) :=
  (after (exec i s)).map fun t => (t.results, t.crcReg, t.crcPhase)

/-- The event log after one operation. -/
def logged (i : Instr) (s : State) : Option (List Event) := (after (exec i s)).map (·.log)

/-! ### WellFormed: one ill-formed term for each check -/

theorem test_wellFormed_command_refused : (Call.frameSpecial (some 16)).wellFormed = false := by decide
theorem test_wellFormed_command_top : (Call.frameSpecial (some 15)).wellFormed = true := by decide
theorem test_wellFormed_register_gap_refused : (Call.readReg (.code 0x12#7) none).wellFormed = false := by decide
theorem test_wellFormed_register_above_refused : (Call.addrEncode (.code 0x15#7)).wellFormed = false := by decide
theorem test_wellFormed_register_top : (Call.addrEncode (.code 0x14#7)).wellFormed = true := by decide
theorem test_wellFormed_word_length_refused : (Call.word [0x01#8, 0x12#8, 0x34#8]).wellFormed = false := by decide
theorem test_wellFormed_word_address_refused :
    (Call.word [0x92#8, 0x00#8, 0x00#8, 0x00#8]).wellFormed = false := by decide
theorem test_wellFormed_word_payload_refused :
    (Call.word [0x89#8, 0x00#8, 0x01#8, 0x00#8]).wellFormed = false := by decide

/-! ### Decoding: words written out bit by bit from the patterns of 30_encoding.md R66 -/

/-- R=0, a=0000001, d=0x1234, c=0000, k=1101 (V-FRM-2). -/
theorem test_decode_write_bits : decode .writeReg (tableBytes 32 0b00000001000100100011010000001101)
    = .ok (.writeReg .sensorConfig 0x1234#16 0x0#4) := by decide
/-- R=0, a=0010001, d=0x00FF, c=1111, k=0001 (V-FRM-7). -/
theorem test_decode_frameWrite_bits : decode .frameWrite (tableBytes 32 0b00010001000000001111111111110001)
    = .ok (.frameWrite .magGainConfig 0x00FF#16 0xF#4) := by decide
/-- R=1, a=0001001, d=0, c=0000, k=0000 (V-FRM-12). -/
theorem test_decode_read_bits : decode .readReg (tableBytes 32 0b10001001000000000000000000000000)
    = .ok (.readReg .xChResult 0x0#4) := by decide
/-- R=1, a=0001100, d=0, c=0000, k=1100 (V-TX-5). -/
theorem test_decode_readS16_bits : decode .readRegS16 (tableBytes 32 0b10001100000000000000000000001100)
    = .ok (.readRegS16 .tempResult 0x0#4) := by decide
/-- R=1, a=0000000, d=0, c=0001, k=1010 (V-FRM-11). -/
theorem test_decode_frameRead_bits : decode .frameRead (tableBytes 32 0b10000000000000000000000000011010)
    = .ok (.frameRead .deviceConfig 0x1#4) := by decide
/-- Fixed 0x80, d=0, c=0000, k=1111 (V-FRM-13). -/
theorem test_decode_specialRead_bits : decode .specialRead (tableBytes 32 0b10000000000000000000000000001111)
    = .ok (.specialRead 0x0#4) := by decide
/-- Fixed 0x80, d=0, c=0010, k=0101 (V-FRM-14). -/
theorem test_decode_frameSpecial_bits : decode .frameSpecial (tableBytes 32 0b10000000000000000000000000100101)
    = .ok (.frameSpecial 0x2#4) := by decide

theorem test_decode_rejects_length : decode .writeReg [0x01#8] = .error .wrongLength := by decide
theorem test_decode_rejects_crc : decode .writeReg [0x01#8, 0x12#8, 0x34#8, 0x0C#8] = .error .wrongCrc := by decide
theorem test_decode_rejects_form : decode .readReg [0x01#8, 0x12#8, 0x34#8, 0x0D#8] = .error .wrongForm := by decide
theorem test_decode_rejects_special_form :
    decode .specialRead [0x89#8, 0x00#8, 0x00#8, 0x00#8] = .error .wrongForm := by decide
theorem test_decode_rejects_address :
    decode .readReg [0x92#8, 0x00#8, 0x00#8, 0x00#8] = .error .undefinedAddress := by decide
theorem test_decode_rejects_payload :
    decode .readReg [0x89#8, 0x12#8, 0x34#8, 0x09#8] = .error .payloadNotZero := by decide
theorem test_decode_rejects_noEncoding :
    decode .crcReset [0x00#8, 0x00#8, 0x00#8, 0x09#8] = .error .noEncoding := by decide

theorem test_encode_write :
    encode (.writeReg .xThrxConfig 0xA5A5#16 0x2#4) = some ⟨0x04#8, 0xA5#8, 0xA5#8, 0x26#8⟩ := by decide
theorem test_encode_none : encode .crcFinish = none := by decide

/-- The matches of spec/opcode_table.json, their CRC nibble zero. -/
theorem test_tableWords :
    decodeTableWord 32 0x00000000 = some (.writeReg .deviceConfig 0x0000#16 0x0#4) ∧
    decodeTableWord 32 0x80000000 = some (.specialRead 0x0#4) ∧
    decodeTableWord 32 0x81000000 = some (.readReg .sensorConfig 0x0#4) ∧
    decodeTableWord 32 0x12000000 = none ∧ decodeTableWord 16 0 = none := by decide

/-- A word placed from reset runs as the next step's operation. -/
theorem test_withFetchWord :
    ((State.reset.withFetchWord 32 0x81000000).calls.map Call.resolve) = [.ok (.readReg .sensorConfig 0x0#4)] := by
  decide

/-- 44_register_address_decoder.md R190: the FRAME_READ column, cmd 0. -/
theorem test_readRequests :
    (allRegisters.map fun r => (encode (.frameRead r 0x0#4)).map fun f => (f.b0, f.b3)) =
      [(0x80#8, 0x0F#8), (0x81#8, 0x02#8), (0x82#8, 0x06#8), (0x83#8, 0x0B#8), (0x84#8, 0x0E#8),
       (0x85#8, 0x03#8), (0x86#8, 0x07#8), (0x87#8, 0x0A#8), (0x88#8, 0x0D#8), (0x89#8, 0x00#8),
       (0x8A#8, 0x04#8), (0x8B#8, 0x09#8), (0x8C#8, 0x0C#8), (0x8D#8, 0x01#8), (0x8E#8, 0x05#8),
       (0x8F#8, 0x08#8), (0x90#8, 0x0B#8), (0x91#8, 0x06#8), (0x93#8, 0x0F#8), (0x94#8, 0x0A#8)].map some := by
  decide

/-- V-ADR-6, V-ADR-7, V-ADR-8. -/
theorem test_splitByte0 : splitByte0 0x8C#8 = (true, some .tempResult) ∧
    splitByte0 0x80#8 = (true, some .deviceConfig) ∧ splitByte0 0x92#8 = (true, none) := by decide

/-! ### The CRC engine -/

/-- 40_crc_engine.md R109. -/
theorem test_crc4_values :
    crc4 [] = 0xF#4 ∧ crc4 [0x00#8] = 0x6#4 ∧ crc4 [0x80#8] = 0x8#4 ∧
    crc4 [0x00#8, 0x00#8, 0x00#8, 0x00#8] = 0x9#4 ∧
    crc4 [0x31#8, 0x32#8, 0x33#8, 0x34#8, 0x35#8, 0x36#8, 0x37#8, 0x38#8, 0x39#8] = 0x4#4 := by decide

/-- V-CRC-4. -/
theorem test_crc4_singleBytes :
    [0x00#8, 0x01#8, 0x02#8, 0x04#8, 0x08#8, 0x10#8, 0x20#8, 0x40#8, 0x80#8, 0xFF#8].map (fun b => crc4 [b])
      = [0x6#4, 0x5#4, 0x0#4, 0xA#4, 0xD#4, 0x3#4, 0xC#4, 0x1#4, 0x8#4, 0x2#4] := by decide

/-- V-FRM-17: the CRC over a frame with its nibble in place. -/
theorem test_crc4_nibbleInPlace : crc4 [0x89#8, 0x12#8, 0x34#8, 0x09#8] = 0x1#4 := by decide

/-- R100's example: from 0x3. -/
theorem test_crcReset : effect .crcReset { openEngine 0x3#4 with crcPhase := .closed }
    = some ([.ok .unit], 0xF#4, .opened) := by decide
/-- V-CRC-8. -/
theorem test_crcUpdate : effect (.crcUpdate [0x89#8, 0x12#8]) (openEngine 0xF#4)
    = some ([.ok .unit], 0x3#4, .opened) := by decide
/-- V-CRC-12. -/
theorem test_crcUpdate_unreset : refused (exec (.crcUpdate [0x00#8]) (atRest [])) = some .crcNotOpen := by decide
/-- V-CRC-1. -/
theorem test_crcFinish : effect .crcFinish (openEngine 0xF#4) = some ([.ok (.u4 0xF#4)], 0xF#4, .closed) := by decide
/-- V-CRC-14. -/
theorem test_crcFinish_closed :
    refused (exec .crcFinish { openEngine 0xF#4 with crcPhase := .closed }) = some .crcNotOpen := by decide

/-! ### The frame constructor -/

/-- V-FRM-4. -/
theorem test_frameWrite : effect (.frameWrite .deviceConfig 0x5000#16 0x1#4) (atRest [])
    = some ([.ok (.frame ⟨0x00#8, 0x50#8, 0x00#8, 0x18#8⟩)], 0x8#4, .closed) := by decide
/-- V-FRM-6. -/
theorem test_frameWrite_bit15 : effect (.frameWrite .alertConfig 0x8000#16 0x0#4) (openEngine 0x7#4)
    = some ([.ok (.frame ⟨0x03#8, 0x80#8, 0x00#8, 0x02#8⟩)], 0x2#4, .closed) := by decide
/-- V-FRM-15, the last register with cmd 1. -/
theorem test_frameRead : effect (.frameRead .magnitudeResult 0x1#4) (atRest [])
    = some ([.ok (.frame ⟨0x94#8, 0x00#8, 0x00#8, 0x1F#8⟩)], 0xF#4, .closed) := by decide
/-- V-FRM-14, c = 0xF. -/
theorem test_frameSpecial : effect (.frameSpecial 0xF#4) (atRest [])
    = some ([.ok (.frame ⟨0x80#8, 0x00#8, 0x00#8, 0xF9#8⟩)], 0x9#4, .closed) := by decide

/-! ### The response validator -/

/-- V-VAL-1. -/
theorem test_validate : effect (.validate ⟨0x89#8, 0x12#8, 0x34#8, 0x09#8⟩) (atRest [])
    = some ([.ok (.frame ⟨0x89#8, 0x12#8, 0x34#8, 0x00#8⟩)], 0x9#4, .closed) := by decide
/-- V-VAL-7. -/
theorem test_validate_mismatch : effect (.validate ⟨0x09#8, 0x12#8, 0x34#8, 0x09#8⟩) (atRest [])
    = some ([.err .integrityFault], 0xF#4, .closed) := by decide
/-- V-VAL-9. -/
theorem test_decodeReg : effect (.decodeReg ⟨0x89#8, 0x12#8, 0x34#8, 0x00#8⟩) (atRest [])
    = some ([.ok (.u16 0x1234#16)], 0x0#4, .unreset) := by decide
/-- V-VAL-11, the most negative value. -/
theorem test_decodeRegS16_negative : effect (.decodeRegS16 ⟨0x8C#8, 0x80#8, 0x00#8, 0x03#8⟩) (atRest [])
    = some ([.ok (.s16 (-32768))], 0x0#4, .unreset) := by decide
/-- V-VAL-11, the greatest value. -/
theorem test_decodeRegS16_positive : effect (.decodeRegS16 ⟨0x8C#8, 0x7F#8, 0xFF#8, 0x0C#8⟩) (atRest [])
    = some ([.ok (.s16 32767)], 0x0#4, .unreset) := by decide
/-- V-VAL-12. -/
theorem test_decodeDual : effect (.decodeDual ⟨0xAB#8, 0xCD#8, 0xE2#8, 0x0A#8⟩) (atRest [])
    = some ([.ok (.pair 0xCD2#16 0xABE#16)], 0x0#4, .unreset) := by decide
/-- V-VAL-14. -/
theorem test_decodeDual_nibbles : effect (.decodeDual ⟨0x80#8, 0x01#8, 0x23#8, 0x00#8⟩) (openEngine 0x5#4)
    = some ([.ok (.pair 0x013#16 0x802#16)], 0x5#4, .opened) := by decide

/-! ### Transactions -/

/-- V-TX-1, its event log. -/
theorem test_writeReg : logged (.writeReg .sensorConfig 0x1234#16 0x0#4) (atRest [ok 0x00#8 0x00#8 0x00#8 0x09#8])
    = some [.csSet .low, .xfer ⟨0x01#8, 0x12#8, 0x34#8, 0x0D#8⟩ (.ok ⟨0x00#8, 0x00#8, 0x00#8, 0x09#8⟩),
        .csSet .high, .result (.ok .unit)] := by decide
/-- V-TX-9: a write's response is checked. -/
theorem test_writeReg_checked :
    effect (.writeReg .deviceConfig 0x0000#16 0x1#4) (atRest [ok 0x00#8 0x00#8 0x00#8 0x00#8])
      = some ([.err .integrityFault], 0x9#4, .closed) := by decide
/-- V-TX-2. -/
theorem test_readReg : effect (.readReg .xChResult 0x0#4) (atRest [ok 0x89#8 0x12#8 0x34#8 0x09#8])
    = some ([.ok (.u16 0x1234#16)], 0x9#4, .closed) := by decide
/-- V-TX-4. -/
theorem test_readReg_transportFault : effect (.readReg .tempResult 0x0#4) (atRest [failed])
    = some ([.err (.transportFault e0)], 0xC#4, .closed) := by decide
/-- V-TX-5. -/
theorem test_readRegS16 : effect (.readRegS16 .tempResult 0x0#4) (atRest [ok 0x8C#8 0x80#8 0x00#8 0x03#8])
    = some ([.ok (.s16 (-32768))], 0x3#4, .closed) := by decide
/-- V-TX-4's log, of the signed read. -/
theorem test_readRegS16_transportFault : logged (.readRegS16 .tempResult 0x0#4) (atRest [failed])
    = some [.csSet .low, .xfer ⟨0x8C#8, 0x00#8, 0x00#8, 0x0C#8⟩ (.err e0), .csSet .high,
        .result (.err (.transportFault e0))] := by decide
/-- V-TX-7. -/
theorem test_specialRead : effect (.specialRead 0x0#4) (atRest [ok 0xAB#8 0xCD#8 0xE2#8 0x0A#8])
    = some ([.ok (.pair 0xCD2#16 0xABE#16)], 0xA#4, .closed) := by decide
/-- P2, step 1. -/
theorem test_specialRead_mismatch : effect (.specialRead 0x0#4) (atRest [ok 0xAB#8 0xCD#8 0xE2#8 0x0B#8])
    = some ([.err .integrityFault], 0xA#4, .closed) := by decide
/-- V-TX-11: stuck at S4 with chip-select Low. -/
theorem test_hung : (after (exec (.readReg .angleResult 0x0#4) (atRest [.neverReturns]))).map
    (fun t => (t.txStep, t.cs, t.log, t.results)) = some (.s4, .low, [.csSet .low], []) := by decide
/-- V-TX-12: the set errors are ignored. -/
theorem test_gpioErrors : effect (.readReg .xChResult 0x0#4)
    { atRest [ok 0x89#8 0x00#8 0x00#8 0x00#8] with gpioReports := [.error, .error] }
      = some ([.ok (.u16 0x0000#16)], 0x0#4, .closed) := by decide

/-! ### The address decoder -/

/-- V-ADR-1, the last register. -/
theorem test_addrEncode : effect (.addrEncode .magnitudeResult) (atRest [])
    = some ([.ok (.u7 0x14#7)], 0x0#4, .unreset) := by decide
/-- V-ADR-2. -/
theorem test_addrDecode : effect (.addrDecode 0x13#7) (atRest [])
    = some ([.ok (.register (some .angleResult))], 0x0#4, .unreset) := by decide
/-- V-ADR-3. -/
theorem test_addrDecode_gap : effect (.addrDecode 0x12#7) (atRest [])
    = some ([.ok (.register none)], 0x0#4, .unreset) := by decide

/-! ### Steps and written programs -/

/-- 30_encoding.md R78: P1, call 2. -/
theorem test_step_triggerConversion :
    (after (step ((atRest [ok 0x01#8 0x00#8 0x00#8 0x04#8]).withCall (.triggerConversion 0x5000#16)))).map
      (fun t => (t.results, t.crcReg, t.calls)) = some ([.ok .unit], 0x4#4, []) := by decide
/-- 60_exceptions.md R213. -/
theorem test_step_notARegister :
    refused (step ((atRest []).withCall (.readReg (.code 0x12#7) none))) = some .notARegister := by decide
theorem test_step_commandOutOfRange :
    refused (step ((atRest []).withCall (.specialRead (some 16)))) = some .commandOutOfRange := by decide
theorem test_step_rests : after (step (atRest [])) = some (atRest []) := by decide

/-- The examples of 30_encoding.md R76, the transactions. -/
theorem test_assemble_transactions :
    assemble "WRITE_REG SENSOR_CONFIG, 0x1234          -- cmd=0x0
WRITE_REG DEVICE_CONFIG, 0x5000, cmd=0x1
READ_REG  X_CH_RESULT
READ_REG_S16 TEMP_RESULT, cmd=0x0
SPECIAL_READ".toList
      = some [.writeReg (.name .sensorConfig) 0x1234#16 none, .writeReg (.name .deviceConfig) 0x5000#16 (some 1),
          .readReg (.name .xChResult) none, .readRegS16 (.name .tempResult) (some 0), .specialRead none] := by decide
/-- The examples of 30_encoding.md R76, the CRC engine. -/
theorem test_assemble_components :
    assemble "CRC_RESET ; CRC_UPDATE [0x89, 0x12] ; CRC_UPDATE [0x34, 0x00] ; CRC_FINISH".toList
      = some [.crcReset, .crcUpdate [0x89#8, 0x12#8], .crcUpdate [0x34#8, 0x00#8], .crcFinish] := by decide
theorem test_assemble_rejects :
    assemble "READ_REG".toList = none ∧ assemble "CRC_UPDATE [0x100]".toList = none ∧
    assemble "WRITE_REG SENSOR_CONFIG, 0x12345".toList = none := by decide

/-! ### Witnesses: a state and operands that meet each obligation's hypotheses, clause by clause -/

/-- The response of V-VAL-1. -/
def good : Frame := ⟨0x89#8, 0x12#8, 0x34#8, 0x09#8⟩

/-- The state before protocol step `n + 1` of a read that is answered by `a`. -/
def during (n : Nat) (a : Answer) : State := txRun n (beginTransaction (.readReg .xChResult 0x0#4) (atRest [a]))

theorem witness_CrcUpdateDividesBitsWhenOpen :
    (openEngine 0xF#4).crcPhase = .opened ∧ State.reset.crcPhase ≠ .opened ∧
    { openEngine 0xF#4 with crcPhase := .closed }.crcPhase ≠ .opened := by decide

theorem witness_CrcFinishReturnsRemainderWhenOpen :
    (openEngine 0x0#4).crcPhase = .opened ∧ State.reset.crcPhase ≠ .opened := by decide

theorem witness_CrcUpdatesCompose : (openEngine 0xF#4).crcPhase = .opened := by decide

theorem witness_Crc4IsAffine :
    [0x89#8, 0x12#8, 0x34#8, 0x00#8].length = [0x00#8, 0x00#8, 0x01#8, 0x00#8].length := by decide

/-- Both ends of the range of bits. -/
theorem witness_SingleBitErrorsAreDetected :
    4 ≤ 4 ∧ 4 < 32 ∧ 4 ≤ 31 ∧ 31 < 32 ∧ responseCrc good = embeddedCrc good := by decide

/-- Both ends of the range of pairs. -/
theorem witness_TwoBitErrorsFifteenApartPass : 4 ≤ 4 ∧ 19 < 32 ∧ 19 = 4 + 15 ∧ 4 ≤ 16 ∧ 31 < 32 ∧ 31 = 16 + 15 := by
  decide

/-- V-VAL-3: of the nibbles 0x0 to 0xF only 0x9 passes. -/
theorem witness_ExactlyOneNibblePasses :
    ((List.range 16).filter fun n =>
      (after (exec (.validate ⟨0x89#8, 0x12#8, 0x34#8, 0x0#4 ++ BitVec.ofNat 4 n⟩) State.reset)).map (·.results)
        == some [.ok (.frame ⟨0x89#8, 0x12#8, 0x34#8, 0x00#8⟩)]) = [0x9] := by decide

theorem witness_SpecialReadAliasesDeviceConfigRead :
    (atRest [ok 0xAB#8 0xCD#8 0xE2#8 0x0A#8]).nextAnswer (specialRequest 0x0#4)
      = .returns (.ok ⟨0xAB#8, 0xCD#8, 0xE2#8, 0x0A#8⟩) ∧
    responseCrc ⟨0xAB#8, 0xCD#8, 0xE2#8, 0x0A#8⟩ = embeddedCrc ⟨0xAB#8, 0xCD#8, 0xE2#8, 0x0A#8⟩ := by decide

theorem witness_BuiltFramesPassValidation :
    AtRest (atRest []) ∧ ∀ i ∈ [Instr.frameWrite .magnitudeResult 0xFFFF#16 0xF#4, .frameRead .deviceConfig 0x0#4,
      .frameSpecial 0x0#4], i.opcode ∈ [Opcode.frameWrite, .frameRead, .frameSpecial] ∧
      (after (exec i (atRest []))).isSome = true := by
  refine ⟨⟨rfl, rfl, rfl, rfl, rfl, rfl⟩, ?_⟩
  decide

theorem witness_ValidateComparesEmbeddedCrc : AtRest (openEngine 0xF#4) ∧ AtRest State.reset :=
  ⟨⟨rfl, rfl, rfl, rfl, rfl, rfl⟩, ⟨rfl, rfl, rfl, rfl, rfl, rfl⟩⟩

/-- A value, an integrity fault and a transport fault. -/
theorem witness_ReturnedTransactionBracketsOneTransfer :
    (after (exec (.readReg .xChResult 0x0#4) (atRest [ok 0x89#8 0x12#8 0x34#8 0x09#8]))).map (·.txStep) = some .idle ∧
    (after (exec (.readReg .xChResult 0x0#4) (atRest [ok 0x89#8 0x12#8 0x34#8 0x08#8]))).map (·.txStep) = some .idle ∧
    (after (exec (.readReg .xChResult 0x0#4) (atRest [failed]))).map (·.txStep) = some .idle ∧
    responseCrc good = embeddedCrc good ∧
    responseCrc ⟨0x89#8, 0x12#8, 0x34#8, 0x08#8⟩ ≠ embeddedCrc ⟨0x89#8, 0x12#8, 0x34#8, 0x08#8⟩ := by decide

theorem witness_HungTransferHoldsChipSelectLow :
    encode (Transaction.readReg .angleResult 0x0#4).instr = some ⟨0x93#8, 0x00#8, 0x00#8, 0x0F#8⟩ ∧
    (atRest [.neverReturns]).nextAnswer ⟨0x93#8, 0x00#8, 0x00#8, 0x0F#8⟩ = .neverReturns := by decide

theorem witness_ChipSelectErrorsAreDiscarded :
    (after (exec (.specialRead 0x0#4) (atRest [ok 0xAB#8 0xCD#8 0xE2#8 0x0A#8]))).isSome = true ∧
    refused (exec .crcFinish State.reset) = some .crcNotOpen := by decide

/-- A step inside a transaction, and its two ends, S5 after a failed transfer and S8. -/
theorem witness_ProtocolStepsFollowInOrder :
    ((during 3 (ok 0x89#8 0x12#8 0x34#8 0x09#8)).txStep, (during 4 failed).txStep,
      (during 7 (ok 0x89#8 0x12#8 0x34#8 0x09#8)).txStep) = (.s4, .s5, .s8) ∧
    (after (step (during 3 (ok 0x89#8 0x12#8 0x34#8 0x09#8)))).map (·.txStep) = some .s5 ∧
    (after (step (during 4 failed))).map (·.txStep) = some .idle ∧
    (after (step (during 7 (ok 0x89#8 0x12#8 0x34#8 0x09#8)))).map (·.txStep) = some .idle := by decide

/-- One state before each of S1 to S8, the failed transfer's S4 and S5 included. -/
theorem witness_ProtocolStepsDoAsListed :
    (∀ n ∈ [0, 1, 2, 3, 4, 5, 6, 7],
      (during n (ok 0x89#8 0x12#8 0x34#8 0x09#8)).running = some (.readReg .xChResult 0x0#4)) ∧
    [0, 1, 2, 3, 4, 5, 6, 7].map (fun n => (during n (ok 0x89#8 0x12#8 0x34#8 0x09#8)).txStep)
      = [.s1, .s2, .s3, .s4, .s5, .s6, .s7, .s8] ∧
    (during 1 failed).f = some ⟨0x89#8, 0x00#8, 0x00#8, 0x00#8⟩ ∧
    (during 3 failed).f = some ⟨0x89#8, 0x00#8, 0x00#8, 0x00#8⟩ ∧
    (during 3 failed).nextAnswer ⟨0x89#8, 0x00#8, 0x00#8, 0x00#8⟩ = .returns (.err e0) ∧
    (during 3 (ok 0x89#8 0x12#8 0x34#8 0x09#8)).nextAnswer ⟨0x89#8, 0x00#8, 0x00#8, 0x00#8⟩ = .returns (.ok good) ∧
    (during 4 failed).out = some (.err e0) ∧ (during 4 (ok 0x89#8 0x12#8 0x34#8 0x09#8)).out = some (.ok good) ∧
    (during 5 (ok 0x89#8 0x12#8 0x34#8 0x09#8)).f = some good ∧
    (during 6 (ok 0x89#8 0x12#8 0x34#8 0x09#8)).f = some ⟨0x89#8, 0x12#8, 0x34#8, 0x00#8⟩ ∧
    ((during 7 (ok 0x89#8 0x12#8 0x34#8 0x09#8)).rxCrc, (during 7 (ok 0x89#8 0x12#8 0x34#8 0x09#8)).calcCrc)
      = (some 0x9#4, some 0x9#4) ∧
    ((during 7 (ok 0x89#8 0x12#8 0x34#8 0x08#8)).rxCrc, (during 7 (ok 0x89#8 0x12#8 0x34#8 0x08#8)).calcCrc)
      = (some 0x8#4, some 0x9#4) := by decide

theorem witness_AtomicTransactionEqualsItsSteps :
    encode (Transaction.writeReg .sensorConfig 0x1234#16 0x0#4).instr = some ⟨0x01#8, 0x12#8, 0x34#8, 0x0D#8⟩ ∧
    (atRest [failed]).nextAnswer ⟨0x01#8, 0x12#8, 0x34#8, 0x0D#8⟩ = .returns (.err e0) := by decide

theorem witness_SignedAndUnsignedReadsAgree :
    (atRest [ok 0x8C#8 0x80#8 0x00#8 0x03#8]).nextAnswer (readRequest .tempResult 0x0#4)
      = .returns (.ok ⟨0x8C#8, 0x80#8, 0x00#8, 0x03#8⟩) ∧
    responseCrc ⟨0x8C#8, 0x80#8, 0x00#8, 0x03#8⟩ = embeddedCrc ⟨0x8C#8, 0x80#8, 0x00#8, 0x03#8⟩ := by decide

/-- Both sides of the gap at 0x12 and the last code. -/
theorem witness_AddrEncodeGivesTableCode :
    (Register.magGainConfig, 0x11) ∈ registerTable ∧ (Register.angleResult, 0x13) ∈ registerTable ∧
    (Register.magnitudeResult, 0x14) ∈ registerTable := by decide

theorem witness_AddrDecodeNamesRegisterOrNone :
    [0x11#7, 0x12#7, 0x13#7, 0x14#7, 0x15#7, 0x7F#7].map addrDecode
      = [some .magGainConfig, none, some .angleResult, some .magnitudeResult, none, none] := by decide

theorem witness_AddressMapsAreInverse : addrDecode 0x14#7 = some .magnitudeResult := by decide

/-- Both clauses: a call to run, and none. -/
theorem witness_StepRunsResolvedCall :
    (atRest []).txStep = .idle ∧ (atRest []).calls = [] ∧
    ((atRest []).withCall .crcReset).txStep = .idle ∧ ((atRest []).withCall .crcReset).calls = [.crcReset] ∧
    Call.crcReset.resolve = .ok .crcReset := by decide

theorem witness_StepRunsDecodedWord :
    decodeTableWord 32 0x0112340D = some (.writeReg .sensorConfig 0x1234#16 0x0#4) := by decide

/-- Each clause at the ends of its range: the codes 0x12, 0x15 and 0x7F, the command 16 with a name and with the last
code that names a register, a call word. -/
theorem witness_IllFormedCallsAreRefusedByReason :
    ((atRest []).withCall (.addrEncode (.code 0x12#7))).calls = [.addrEncode (.code 0x12#7)] ∧
    (0x12#7).toNat = 0x12 ∧ 0x15 ≤ (0x15#7).toNat ∧ 0x15 ≤ (0x7F#7).toNat ∧ 15 < 16 ∧
    RegOperand.name .deviceConfig = .name .deviceConfig ∧ RegOperand.code 0x14#7 = .code (addrCode .magnitudeResult) ∧
    wordWellFormed [0x92#8, 0x00#8, 0x00#8, 0x00#8] = false := by decide

theorem witness_DecodeInvertsEncode :
    encode (.specialRead 0xF#4) = some ⟨0x80#8, 0x00#8, 0x00#8, 0xF9#8⟩ := by decide

theorem witness_DecodedRequestsAreEncodings :
    decode .readRegS16 [0x80#8, 0x00#8, 0x00#8, 0x0F#8] = .ok (.readRegS16 .deviceConfig 0x0#4) := by decide

theorem witness_EncodingsMatchFormPatterns :
    encode (.writeReg .systemConfig 0xFFFF#16 0x0#4) = some ⟨0x02#8, 0xFF#8, 0xFF#8, 0x0F#8⟩ ∧
    encode (.frameRead .magnitudeResult 0x1#4) = some ⟨0x94#8, 0x00#8, 0x00#8, 0x1F#8⟩ ∧
    encode (.frameSpecial 0x0#4) = some ⟨0x80#8, 0x00#8, 0x00#8, 0x0F#8⟩ := by decide

/-- The invariant holds at rest with a call to come, before S3 and before S8, and each steps. -/
theorem witness_BlockInvariantIsKept :
    (Inv ((atRest []).withCall .crcReset) ∧ Inv (during 2 (ok 0x89#8 0x12#8 0x34#8 0x09#8)) ∧
      Inv (during 7 (ok 0x89#8 0x12#8 0x34#8 0x09#8))) ∧
    (after (step ((atRest []).withCall .crcReset))).isSome = true ∧
    (after (step (during 2 (ok 0x89#8 0x12#8 0x34#8 0x09#8)))).isSome = true ∧
    (after (step (during 7 (ok 0x89#8 0x12#8 0x34#8 0x09#8)))).isSome = true := by
  refine ⟨⟨?_, ?_, ?_⟩, by decide⟩ <;> constructor <;> decide

theorem witness_LogBracketingIsKept :
    LogBracketed ((atRest []).withCall .crcReset) ∧ LogBracketed (during 3 failed) ∧
    LogBracketed (during 4 failed) ∧ Inv (during 4 failed) ∧
    (after (step (during 4 failed))).isSome = true :=
  ⟨rfl, by unfold LogBracketed; decide, by unfold LogBracketed; decide, by constructor <;> decide, by decide⟩

/-- Before S3, where the buffer holds the request, and before S4, from which the request is logged. -/
theorem witness_EmittedRequestsStayEncodings :
    (∀ s ∈ [during 2 failed, during 3 failed], Inv s ∧ BufferHoldsRequest s ∧ LogRequestsEncoded s) ∧
    (after (step (during 3 failed))).map (·.log.length) = some 2 := by
  refine ⟨?_, by decide⟩
  intro s hs
  simp only [List.mem_cons, List.not_mem_nil, or_false] at hs
  rcases hs with rfl | rfl
  · exact ⟨by constructor <;> decide,
      ⟨fun h => absurd h (by decide), fun _ => ⟨.readReg .xChResult 0x0#4, by decide, by decide⟩⟩,
      fun _ _ h => absurd h (by rw [show (during 2 failed).log = [] by decide]; exact List.not_mem_nil)⟩
  · refine ⟨by constructor <;> decide,
      ⟨fun h => absurd h (by decide), fun _ => ⟨.readReg .xChResult 0x0#4, by decide, by decide⟩⟩, fun _ _ h => ?_⟩
    rw [show (during 3 failed).log = [.csSet .low] by decide] at h
    simp at h

theorem witness_LogAndResultsOnlyGrow :
    (after (step (during 4 failed))).map (fun t => (t.log.length, t.results.length)) = some (4, 1) := by decide

/-- A call taken at rest, and a protocol step. -/
theorem witness_CallsAreTakenInOrder :
    (after (step ((atRest []).withCall .crcReset))).isSome = true ∧ ((atRest []).withCall .crcReset).txStep = .idle ∧
    (after (step (during 3 failed))).isSome = true ∧ (during 3 failed).txStep ≠ .idle := by decide

theorem witness_ComponentOperationsTouchOnlyTheEngine :
    AtRest (openEngine 0xF#4) ∧ (∀ t : Transaction, Instr.decodeDual good ≠ t.instr) ∧
    (after (exec (.decodeDual good) (openEngine 0xF#4))).isSome = true ∧
    (∀ t : Transaction, Instr.crcFinish ≠ t.instr) ∧ (after (exec .crcFinish (openEngine 0xF#4))).isSome = true :=
  ⟨⟨rfl, rfl, rfl, rfl, rfl, rfl⟩, fun t => by cases t <;> simp [Transaction.instr], by decide,
    fun t => by cases t <;> simp [Transaction.instr], by decide⟩

theorem witness_OnlyUnopenedCrcOperationsAreRefused :
    refused (exec (.crcUpdate []) State.reset) = some .crcNotOpen ∧
    refused (exec (.crcUpdate []) (openEngine 0xF#4)) = none := by decide

theorem witness_FrameOperationsCloseCallersComputation :
    (Instr.validate good).opcode ∈ [Opcode.frameWrite, .frameRead, .frameSpecial, .validate, .writeReg, .readReg,
      .readRegS16, .specialRead] := by decide

theorem witness_StuckOnlyInUnansweredTransfer :
    Inv (during 3 .neverReturns) ∧ step (during 3 .neverReturns) = .fault .transferNeverReturns :=
  ⟨by constructor <;> decide, rfl⟩

/-- A call outside the grammar, and a CRC operation on an engine that is not open. -/
theorem witness_RefusedOnlyForNextCall :
    (Inv ((atRest []).withCall (.addrEncode (.code 0x12#7))) ∧ Inv ((atRest []).withCall .crcFinish)) ∧
    refused (step ((atRest []).withCall (.addrEncode (.code 0x12#7)))) = some .notARegister ∧
    refused (step ((atRest []).withCall .crcFinish)) = some .crcNotOpen := by
  refine ⟨⟨?_, ?_⟩, by decide⟩ <;> constructor <;> decide

/-- A next state with an error handed on, a fault and a refusal. -/
theorem witness_TransportErrorsAreOpaque :
    (during 4 failed).out = some (.err e0) ∧
    ({ during 4 failed with answers := [failed] } : State).answers ≠ [] ∧
    (after (step { during 4 failed with answers := [failed] })).map (·.results)
      = some [.err (.transportFault e0)] ∧
    (during 3 .neverReturns).answers ≠ [] ∧ txFault (during 3 .neverReturns) = some .transferNeverReturns ∧
    ((atRest [failed]).withCall .crcFinish).answers ≠ [] ∧
    refused (step ((atRest [failed]).withCall .crcFinish)) = some .crcNotOpen := by decide

end Sys2Proof.Tests
end

section
/-! PROOFS. The family of 30_encoding.md: requests match the patterns of their forms, and a command left out is 0x0. -/

namespace Sys2Proof.Machine

/-! ### The fields of a sealed request as bits of the number `W(f)` (30_encoding.md R60, R65) -/

theorem sealedFrame_word_addr (x : BitVec 1) (a : Addr7) (b1 b2 : Byte) (c : Nibble) :
    (sealedFrame (x ++ a) b1 b2 c).word.extractLsb' 24 7 = a := by
  obtain ⟨haddr, -, -, -⟩ := word_fields (x ++ a) b1 b2 (sealedFrame (x ++ a) b1 b2 c).b3
  exact haddr.trans (addr_byte x a)

theorem sealedFrame_word_payload (b0 b1 b2 : Byte) (c : Nibble) :
    (sealedFrame b0 b1 b2 c).word.extractLsb' 8 16 = b1 ++ b2 := by
  obtain ⟨-, hpayload, -, -⟩ := word_fields b0 b1 b2 (sealedFrame b0 b1 b2 c).b3
  exact hpayload

theorem sealedFrame_word_command (b0 b1 b2 : Byte) (c : Nibble) :
    (sealedFrame b0 b1 b2 c).word.extractLsb' 4 4 = c := by
  obtain ⟨-, -, hcommand, -⟩ := word_fields b0 b1 b2 (sealedFrame b0 b1 b2 c).b3
  exact hcommand.trans (command_byte c _)

theorem sealedFrame_word_crc (b0 b1 b2 : Byte) (c : Nibble) :
    (sealedFrame b0 b1 b2 c).word.extractLsb' 0 4 = responseCrc (sealedFrame b0 b1 b2 c) := by
  obtain ⟨-, -, -, hcrc⟩ := word_fields b0 b1 b2 (sealedFrame b0 b1 b2 c).b3
  calc (sealedFrame b0 b1 b2 c).word.extractLsb' 0 4
      = embeddedCrc (sealedFrame b0 b1 b2 c) := hcrc
    _ = crc4 [b0, b1, b2, c ++ 0x0#4] := sealedFrame_embeddedCrc b0 b1 b2 c
    _ = responseCrc (sealedFrame b0 b1 b2 c) := (sealedFrame_responseCrc b0 b1 b2 c).symm

/-! ### The masks of the three forms (30_encoding.md R66) -/

theorem flagByte_and_0x80 (x : BitVec 1) (a : Addr7) : (x ++ a : Byte) &&& 0x80#8 = x ++ 0x00#7 := by
  revert x a; decide

theorem writeRequest_mask (r : Register) (v : Half) (c : Nibble) :
    (writeRequest r v c).word &&& 0x80000000#32 = 0x00000000#32 := by
  rw [show 0x80000000#32 = 0x80#8 ++ 0x00#8 ++ 0x00#8 ++ 0x00#8 from rfl, writeRequest, sealedFrame, mask_append,
    flagByte_and_0x80]
  simp only [BitVec.and_zero]
  rfl

theorem readRequest_mask (r : Register) (c : Nibble) :
    (readRequest r c).word &&& 0x80FFFF00#32 = 0x80000000#32 := by
  rw [show 0x80FFFF00#32 = 0x80#8 ++ 0xFF#8 ++ 0xFF#8 ++ 0x00#8 from rfl, readRequest, sealedFrame, mask_append,
    flagByte_and_0x80]
  simp only [BitVec.and_zero]
  rfl

theorem specialRequest_mask (c : Nibble) :
    (specialRequest c).word &&& 0xFFFFFF00#32 = 0x80000000#32 := by
  rw [show 0xFFFFFF00#32 = 0xFF#8 ++ 0xFF#8 ++ 0xFF#8 ++ 0x00#8 from rfl, specialRequest, sealedFrame, mask_append]
  simp only [BitVec.and_zero]
  rfl

/-! ### The request each form's operations encode to (30_encoding.md R66) -/

theorem eq_writeRequest_of_encode {r : Register} {v : Half} {c : Nibble} {f : Frame}
    (h : encode (.frameWrite r v c) = some f ∨ encode (.writeReg r v c) = some f) : f = writeRequest r v c := by
  simp only [encode, encode_write, Option.some.injEq, or_self] at h
  exact h.symm

theorem eq_readRequest_of_encode {r : Register} {c : Nibble} {f : Frame}
    (h : encode (.frameRead r c) = some f ∨ encode (.readReg r c) = some f ∨ encode (.readRegS16 r c) = some f) :
    f = readRequest r c := by
  simp only [encode, encode_read, Option.some.injEq, or_self] at h
  exact h.symm

theorem eq_specialRequest_of_encode {c : Nibble} {f : Frame}
    (h : encode (.frameSpecial c) = some f ∨ encode (.specialRead c) = some f) : f = specialRequest c := by
  simp only [encode, encode_special, Option.some.injEq, or_self] at h
  exact h.symm

/-- Settles O44: each form's operations encode to one sealed request, whose masks and fields are read off its bytes. -/
theorem encodingsMatchFormPatterns : Obligations.EncodingsMatchFormPatterns := by
  unfold Obligations.EncodingsMatchFormPatterns
  intro r v c f
  refine ⟨fun h => ?_, fun h => ?_, fun h => ?_⟩
  · obtain rfl := eq_writeRequest_of_encode h
    exact ⟨writeRequest_mask r v c, sealedFrame_word_addr .., (sealedFrame_word_payload ..).trans (half_split v),
      sealedFrame_word_command .., sealedFrame_word_crc ..⟩
  · obtain rfl := eq_readRequest_of_encode h
    exact ⟨readRequest_mask r c, sealedFrame_word_addr .., sealedFrame_word_command .., sealedFrame_word_crc ..⟩
  · obtain rfl := eq_specialRequest_of_encode h
    exact ⟨specialRequest_mask c, sealedFrame_word_command .., sealedFrame_word_crc ..⟩

/-! ### The command a call leaves out (30_encoding.md R69) -/

theorem resolveCommand_none : resolveCommand none = resolveCommand (some 0x0) := rfl

theorem resolveOperands_none (r : RegOperand) (mk : Register → Nibble → Instr) :
    resolveOperands r none mk = resolveOperands r (some 0x0) mk := by
  simp only [resolveOperands, resolveCommand_none]

theorem resolveCommandOnly_none (mk : Nibble → Instr) :
    resolveCommandOnly none mk = resolveCommandOnly (some 0x0) mk := by
  simp only [resolveCommandOnly, resolveCommand_none]

/-- Settles O40: the seven operations resolve their command through one of two shared operations, which take a
missing command as 0x0. -/
theorem omittedCommandIsZero : Obligations.OmittedCommandIsZero := by
  unfold Obligations.OmittedCommandIsZero
  intro r v
  exact ⟨resolveOperands_none r _, resolveOperands_none r _, resolveOperands_none r _, resolveCommandOnly_none _,
    resolveOperands_none r _, resolveOperands_none r _, resolveCommandOnly_none _, rfl⟩

end Sys2Proof.Machine
end

section
/-! PROOFS. The family of 40_crc_engine.md: CRC_RESET opens a computation. -/

namespace Sys2Proof.Machine

/-- What CRC_RESET runs: the engine's reset, whose unit result is then returned (40_crc_engine.md R100). -/
theorem exec_crcReset (s : State) : exec .crcReset s = .next (deliver (.ok .unit) (engineReset s)) := rfl

/-- The engine's reset writes the register and the phase, the delivery writes the results. -/
theorem deliver_engineReset (r : OpResult) (s : State) :
    deliver r (engineReset s) =
      { s with crcReg := 0xF#4, crcPhase := .opened, results := s.results ++ [r] } := by
  simp only [deliver, engineReset, Config.crcInit]

/-- Settles O2: CRC_RESET asks nothing of the phase, and its two updates write three fields. -/
theorem crcResetOpensComputation : Obligations.CrcResetOpensComputation := by
  unfold Obligations.CrcResetOpensComputation
  intro s
  rw [exec_crcReset, deliver_engineReset]

end Sys2Proof.Machine
end

section
/-! PROOFS. The family of 41_frame_constructor.md: the three FRAME operations build the spec's requests. -/

namespace Sys2Proof.Machine

/-! ### The bytes of a request as numbers (30_encoding.md R60) -/

/-- Bit fields side by side, the higher one first, as a number. -/
theorem toNat_append_eq_add {m n : Nat} (x : BitVec m) (y : BitVec n) :
    (x ++ y).toNat = 2 ^ n * x.toNat + y.toNat := by
  rw [BitVec.toNat_append, Nat.shiftLeft_eq, Nat.mul_comm, ← Nat.two_pow_add_eq_or_of_lt y.isLt]

/-- Byte 0: the flag weighs 128 above the address. -/
theorem flagByte_toNat (x : BitVec 1) (a : Addr7) : (x ++ a : Byte).toNat = 128 * x.toNat + a.toNat :=
  toNat_append_eq_add x a

/-- The half-word's high byte, byte 1 of a write (20_memory.md R43). -/
theorem highByte_toNat (v : Half) : (v.extractLsb' 8 8).toNat = v.toNat / 256 := by
  have := v.isLt
  rw [BitVec.extractLsb'_toNat, Nat.shiftRight_eq_div_pow]
  omega

/-- The half-word's low byte, byte 2 of a write (20_memory.md R43). -/
theorem lowByte_toNat (v : Half) : (v.extractLsb' 0 8).toNat = v.toNat % 256 := by
  rw [BitVec.extractLsb'_toNat, Nat.shiftRight_zero]

/-- Byte 3 of a sealed request: the command above the CRC nibble (41_frame_constructor.md R123). -/
theorem sealedFrame_b3_toNat (b0 b1 b2 : Byte) (c : Nibble) :
    (sealedFrame b0 b1 b2 c).b3.toNat = 16 * c.toNat + (embeddedCrc (sealedFrame b0 b1 b2 c)).toNat := by
  rw [sealedFrame_embeddedCrc]
  exact toNat_append_eq_add c _

/-- A sealed request carries the CRC of itself with its nibble zero (41_frame_constructor.md R123). -/
theorem embeddedCrc_sealedFrame (b0 b1 b2 : Byte) (c : Nibble) :
    embeddedCrc (sealedFrame b0 b1 b2 c) = responseCrc (sealedFrame b0 b1 b2 c) := by
  rw [sealedFrame_embeddedCrc, sealedFrame_responseCrc]

/-! ### Each operation is the building of a transaction's layout (41_frame_constructor.md R124 to R126) -/

theorem exec_frameWrite (r : Register) (v : Half) (c : Nibble) (s : State) :
    exec (.frameWrite r v c) s = .next (buildFrame (Transaction.writeReg r v c).layout s) := rfl

theorem exec_frameRead (r : Register) (c : Nibble) (s : State) :
    exec (.frameRead r c) s = .next (buildFrame (Transaction.readReg r c).layout s) := rfl

theorem exec_frameSpecial (c : Nibble) (s : State) :
    exec (.frameSpecial c) s = .next (buildFrame (Transaction.specialRead c).layout s) := rfl

/-- The special request is the read of address 0x00 (70_reset_and_hazards.md R246). -/
theorem specialRequest_eq_readRequest (c : Nibble) : specialRequest c = readRequest .deviceConfig c := rfl

/-- The special request's three constant bytes leave 0x3 in the register, so its CRC is one more byte's division. -/
theorem specialRequest_b3 (c : Nibble) : (specialRequest c).b3 = c ++ crcByte 0x3#4 (c ++ 0x0#4) := by
  have h0 : crcByte Config.crcInit 0x80#8 = 0x8#4 := by decide
  have h1 : crcByte 0x8#4 0x00#8 = 0xE#4 := by decide
  have h2 : crcByte 0xE#4 0x00#8 = 0x3#4 := by decide
  calc (specialRequest c).b3
      = c ++ crcBytes Config.crcInit [0x80#8, 0x00#8, 0x00#8, c ++ 0x0#4] := by rw [specialRequest, sealedFrame, crc4]
    _ = c ++ crcByte 0x3#4 (c ++ 0x0#4) := by simp only [crcBytes_cons, crcBytes_nil, h0, h1, h2]

/-- Byte 3 of the special request for the commands 0 to 15, as the spec lists it (41_frame_constructor.md R126). -/
theorem specialRequest_b3_table :
    (List.range 16).map (fun n => (specialRequest (BitVec.ofNat 4 n)).b3) =
      [0x0F#8, 0x1A#8, 0x25#8, 0x30#8, 0x48#8, 0x5D#8, 0x62#8, 0x77#8,
       0x81#8, 0x94#8, 0xAB#8, 0xBE#8, 0xC6#8, 0xD3#8, 0xEC#8, 0xF9#8] := by
  simp only [specialRequest_b3]
  decide

/-- Settles O13: the layout of a write, once built, is the sealed write request, whose bytes are read as numbers. -/
theorem frameWriteBuildsWriteRequest : Obligations.FrameWriteBuildsWriteRequest := by
  unfold Obligations.FrameWriteBuildsWriteRequest
  intro r v c s
  have hb0 : (writeRequest r v c).b0.toNat = (addrCode r).toNat :=
    (flagByte_toNat 0#1 (addrCode r)).trans (Nat.zero_add _)
  refine ⟨?_, hb0, highByte_toNat v, lowByte_toNat v, sealedFrame_b3_toNat .., embeddedCrc_sealedFrame ..⟩
  rw [exec_frameWrite, buildFrame_layout, requestOf]

/-- Settles O14: the layout of a read, once built, is the sealed read request, whose flag gives byte 0 its 128. -/
theorem frameReadBuildsReadRequest : Obligations.FrameReadBuildsReadRequest := by
  unfold Obligations.FrameReadBuildsReadRequest
  intro r c s
  have hb0 : (readRequest r c).b0.toNat = 128 + (addrCode r).toNat := flagByte_toNat 1#1 (addrCode r)
  refine ⟨?_, hb0, rfl, rfl, sealedFrame_b3_toNat .., embeddedCrc_sealedFrame ..⟩
  rw [exec_frameRead, buildFrame_layout, requestOf]

/-- Settles O15: the layout of the special read, once built, is the sealed special request; its last byte is
one byte's division for each of the sixteen commands. -/
theorem frameSpecialBuildsSpecialRequest : Obligations.FrameSpecialBuildsSpecialRequest := by
  unfold Obligations.FrameSpecialBuildsSpecialRequest
  intro c s
  refine ⟨?_, specialRequest_eq_readRequest c, rfl, rfl, rfl, specialRequest_b3_table⟩
  rw [exec_frameSpecial, buildFrame_layout, requestOf]

end Sys2Proof.Machine
end

section
/-! PROOFS. The family of 42_response_validator.md: DECODE_DUAL reads two 12-bit values. -/

namespace Sys2Proof.Machine

/-- What DECODE_DUAL runs: its pair is returned, and no other part of the state is touched
(42_response_validator.md R147). -/
theorem exec_decodeDual (g : Frame) (s : State) :
    exec (.decodeDual g) s = .next (deliver (.ok (.pair (dualFirst g) (dualSecond g))) s) := rfl

/-- A byte above a nibble is at most 16 * 255 + 15 (42_response_validator.md R147, bits 15 to 12 are zero). -/
theorem dualFirst_toNat_le (g : Frame) : (dualFirst g).toNat ≤ 0xFFF := by
  have hbyte := g.b1.isLt
  rw [dualFirst_toNat]
  omega

theorem dualSecond_toNat_le (g : Frame) : (dualSecond g).toNat ≤ 0xFFF := by
  have hbyte := g.b0.isLt
  have hnibble := g.b2.isLt
  rw [dualSecond_toNat]
  omega

/-- Settles O21: the pair is the two values the model's DECODE_DUAL forms, each a byte above a nibble. -/
theorem decodeDualUnpacksTwelveBitPair : Obligations.DecodeDualUnpacksTwelveBitPair := by
  unfold Obligations.DecodeDualUnpacksTwelveBitPair
  intro g s
  exact ⟨dualFirst g, dualSecond g, dualFirst_toNat g, dualSecond_toNat g, dualFirst_toNat_le g,
    dualSecond_toNat_le g, exec_decodeDual g s⟩

end Sys2Proof.Machine
end

section
/-! PROOFS. The family of 44_register_address_decoder.md: ADDR_DECODE names the register of a code, or none. -/

namespace Sys2Proof

/-- The defined codes are 0x00 to 0x14 without 0x12, so the others are the gap and those above 0x14
(44_register_address_decoder.md R191). -/
theorem codeIsDefined_eq_false_iff (a : Addr7) :
    codeIsDefined a = false ↔ a.toNat = 0x12 ∨ (0x15 ≤ a.toNat ∧ a.toNat ≤ 0x7F) := by
  have hlt := a.isLt
  simp only [codeIsDefined, Bool.or_eq_false_iff, decide_eq_false_iff_not, beq_eq_false_iff_ne]
  omega

theorem addrDecode_eq_none (a : Addr7) :
    addrDecode a = none ↔ a.toNat = 0x12 ∨ (0x15 ≤ a.toNat ∧ a.toNat ≤ 0x7F) := by
  rw [← codeIsDefined_eq_false_iff, ← addrDecode_isSome, Option.isSome_eq_false_iff, Option.isNone_iff_eq_none]

namespace Machine

/-- What ADDR_DECODE runs: the register or "None" is returned, and no other part of the state is touched
(44_register_address_decoder.md R193). -/
theorem exec_addrDecode (code : Addr7) (s : State) :
    exec (.addrDecode code) s = .next (deliver (.ok (.register (addrDecode code))) s) := rfl

/-- Settles O34: the register found is the address map's, which inverts the table and is none outside its image;
the three named codes are their registers' table entries. -/
theorem addrDecodeNamesRegisterOrNone : Obligations.AddrDecodeNamesRegisterOrNone := by
  unfold Obligations.AddrDecodeNamesRegisterOrNone
  intro code s
  refine ⟨addrDecode code, exec_addrDecode code s, addrDecode_eq_some code, addrDecode_eq_none code, ?_, ?_, ?_⟩
  · rintro rfl
    exact addrDecode_addrCode .magGainConfig
  · rintro rfl
    exact addrDecode_addrCode .angleResult
  · rintro rfl
    exact addrDecode_addrCode .tempResult

end Machine

end Sys2Proof
end

section
/-! PROOFS. The decoder and the encoder are inverse (30_encoding.md R60 to R66, R74). -/

namespace Sys2Proof.Machine

/-! ### What the decoder accepts -/

/-- The decoder reads a frame whose CRC nibble agrees and takes its operands from the fields. -/
theorem decode_eq_ok_iff (op : Opcode) (bytes : List Byte) (i : Instr) :
    decode op bytes = .ok i ↔
      ∃ f : Frame, bytes = f.bytes ∧ f.crcAgrees = true ∧ f.fields.operandsFor op = .ok i := by
  simp only [← ofBytes_eq_some, decode]
  cases Frame.ofBytes bytes with
  | none => simp
  | some f =>
    cases hops : f.fields.operandsFor op with
    | error e => simp [hops]
    | ok j => cases hcrc : f.crcAgrees <;> simp [hops, hcrc]

/-- An address that names no register is no register's code. -/
theorem addrCode_ne_of_addrDecode {a : Addr7} (h : addrDecode a = none) (r : Register) : a ≠ addrCode r := by
  rintro rfl
  simp [addrDecode_addrCode] at h

theorem asWrite_eq_ok_iff (x : Fields) (mk : Register → Half → Nibble → Instr) (i : Instr) :
    x.asWrite mk = .ok i ↔ ∃ r, x = ⟨false, addrCode r, x.payload, x.command⟩ ∧ i = mk r x.payload x.command := by
  obtain ⟨flag, addr, payload, command⟩ := x
  cases flag with
  | true => simp [Fields.asWrite]
  | false =>
    cases hr : addrDecode addr with
    | none => simp [Fields.asWrite, hr, addrCode_ne_of_addrDecode hr]
    | some r =>
      obtain rfl := (addrDecode_eq_some addr r).mp hr
      simp [Fields.asWrite, hr, ← addrDecode_eq_some, addrDecode_addrCode, eq_comm (a := i)]

theorem asRead_eq_ok_iff (x : Fields) (mk : Register → Nibble → Instr) (i : Instr) :
    x.asRead mk = .ok i ↔ ∃ r, x = ⟨true, addrCode r, 0x0000#16, x.command⟩ ∧ i = mk r x.command := by
  obtain ⟨flag, addr, payload, command⟩ := x
  cases flag with
  | false => simp [Fields.asRead]
  | true =>
    cases hr : addrDecode addr with
    | none => simp [Fields.asRead, hr, addrCode_ne_of_addrDecode hr]
    | some r =>
      obtain rfl := (addrDecode_eq_some addr r).mp hr
      by_cases hp : payload = 0x0000#16 <;>
        simp [Fields.asRead, hr, hp, ← addrDecode_eq_some, addrDecode_addrCode, eq_comm (a := i)]

theorem asSpecial_eq_ok_iff (x : Fields) (mk : Nibble → Instr) (i : Instr) :
    x.asSpecial mk = .ok i ↔ x = ⟨true, 0x00#7, 0x0000#16, x.command⟩ ∧ i = mk x.command := by
  obtain ⟨flag, addr, payload, command⟩ := x
  cases flag with
  | false => simp [Fields.asSpecial]
  | true =>
    by_cases ha : addr = 0x00#7
    · by_cases hp : payload = 0x0000#16 <;> simp [Fields.asSpecial, ha, hp, eq_comm (a := i)]
    · simp [Fields.asSpecial, ha]

/-! ### The fields of the requests, and the frame with given fields -/

theorem writeRequest_fields (r : Register) (v : Half) (c : Nibble) :
    (writeRequest r v c).fields = ⟨false, addrCode r, v, c⟩ := by
  rw [writeRequest, fields_sealedFrame, half_split]; rfl

theorem readRequest_fields (r : Register) (c : Nibble) :
    (readRequest r c).fields = ⟨true, addrCode r, 0x0000#16, c⟩ := by
  rw [readRequest, fields_sealedFrame]; rfl

theorem specialRequest_fields (c : Nibble) : (specialRequest c).fields = ⟨true, 0x00#7, 0x0000#16, c⟩ :=
  readRequest_fields .deviceConfig c

/-- A frame whose CRC nibble agrees is sealed from its fields. -/
theorem eq_sealedFrame_fields (f : Frame) (h : f.crcAgrees = true) :
    f = sealedFrame ((if f.fields.readFlag then 1#1 else 0#1) ++ f.fields.addr)
      (f.fields.payload.extractLsb' 8 8) (f.fields.payload.extractLsb' 0 8) f.fields.command := by
  obtain ⟨hhigh, hlow⟩ := bytes_of_half f.b1 f.b2
  simp only [Frame.fields, hhigh, hlow]
  exact (eq_sealedFrame_of_crcAgrees f h).trans (congrArg (sealedFrame · f.b1 f.b2 _) (flag_addr_byte f.b0))

/-- The other 28 bits determine a frame whose CRC nibble agrees (30_encoding.md R65). -/
theorem eq_of_fields_eq {f g : Frame} (hf : f.crcAgrees = true) (hg : g.crcAgrees = true)
    (h : f.fields = g.fields) : f = g := by
  rw [eq_sealedFrame_fields f hf, h, ← eq_sealedFrame_fields g hg]

/-! ### Each form's operations -/

theorem decodedAs_write {f : Frame} {i : Instr} (mk : Register → Half → Nibble → Instr) (hcrc : f.crcAgrees = true) :
    f.fields.asWrite mk = .ok i ↔ ∃ r v c, f = writeRequest r v c ∧ i = mk r v c := by
  rw [asWrite_eq_ok_iff]
  constructor
  · rintro ⟨r, hfields, rfl⟩
    exact ⟨r, _, _, eq_of_fields_eq hcrc (crcAgrees_sealedFrame ..) (hfields.trans (writeRequest_fields ..).symm), rfl⟩
  · rintro ⟨r, v, c, rfl, rfl⟩
    exact ⟨r, by simp only [writeRequest_fields], by simp only [writeRequest_fields]⟩

theorem decodedAs_read {f : Frame} {i : Instr} (mk : Register → Nibble → Instr) (hcrc : f.crcAgrees = true) :
    f.fields.asRead mk = .ok i ↔ ∃ r c, f = readRequest r c ∧ i = mk r c := by
  rw [asRead_eq_ok_iff]
  constructor
  · rintro ⟨r, hfields, rfl⟩
    exact ⟨r, _, eq_of_fields_eq hcrc (crcAgrees_sealedFrame ..) (hfields.trans (readRequest_fields ..).symm), rfl⟩
  · rintro ⟨r, c, rfl, rfl⟩
    exact ⟨r, by simp only [readRequest_fields], by simp only [readRequest_fields]⟩

theorem decodedAs_special {f : Frame} {i : Instr} (mk : Nibble → Instr) (hcrc : f.crcAgrees = true) :
    f.fields.asSpecial mk = .ok i ↔ ∃ c, f = specialRequest c ∧ i = mk c := by
  rw [asSpecial_eq_ok_iff]
  constructor
  · rintro ⟨hfields, rfl⟩
    exact ⟨_, eq_of_fields_eq hcrc (crcAgrees_sealedFrame ..) (hfields.trans (specialRequest_fields _).symm), rfl⟩
  · rintro ⟨c, rfl, rfl⟩
    exact ⟨by simp only [specialRequest_fields], by simp only [specialRequest_fields]⟩

/-- Every encoding carries the CRC of its other bits (30_encoding.md R65). -/
theorem crcAgrees_of_encode {i : Instr} {f : Frame} (h : encode i = some f) : f.crcAgrees = true := by
  cases i with
  | frameWrite r v c => rw [eq_writeRequest_of_encode (.inl h)]; exact crcAgrees_sealedFrame ..
  | writeReg r v c => rw [eq_writeRequest_of_encode (.inr h)]; exact crcAgrees_sealedFrame ..
  | frameRead r c => rw [eq_readRequest_of_encode (.inl h)]; exact crcAgrees_sealedFrame ..
  | readReg r c => rw [eq_readRequest_of_encode (.inr (.inl h))]; exact crcAgrees_sealedFrame ..
  | readRegS16 r c => rw [eq_readRequest_of_encode (.inr (.inr h))]; exact crcAgrees_sealedFrame ..
  | frameSpecial c => rw [eq_specialRequest_of_encode (.inl h)]; exact crcAgrees_sealedFrame ..
  | specialRead c => rw [eq_specialRequest_of_encode (.inr h)]; exact crcAgrees_sealedFrame ..
  | _ => simp [encode] at h

/-- The operands of `op` in a sealed frame are those of the operation that `op` encodes to that frame. -/
theorem operandsFor_eq_ok_iff {f : Frame} (hcrc : f.crcAgrees = true) (op : Opcode) (i : Instr) :
    f.fields.operandsFor op = .ok i ↔ i.opcode = op ∧ encode i = some f := by
  cases op with
  | frameWrite | writeReg =>
    rw [Fields.operandsFor, decodedAs_write _ hcrc]
    cases i <;> simp [Instr.opcode, encode, encode_write, eq_comm]
  | frameRead | readReg | readRegS16 =>
    rw [Fields.operandsFor, decodedAs_read _ hcrc]
    cases i <;> simp [Instr.opcode, encode, encode_read, eq_comm]
  | frameSpecial | specialRead =>
    rw [Fields.operandsFor, decodedAs_special _ hcrc]
    cases i <;> simp [Instr.opcode, encode, encode_special, eq_comm]
  | _ => cases i <;> simp [Fields.operandsFor, Instr.opcode, encode]

/-- The decoder accepts exactly the encodings of the operation asked for. -/
theorem decode_eq_ok_iff_encode (op : Opcode) (bytes : List Byte) (i : Instr) :
    decode op bytes = .ok i ↔ i.opcode = op ∧ ∃ f, encode i = some f ∧ bytes = f.bytes := by
  rw [decode_eq_ok_iff]
  constructor
  · rintro ⟨f, hbytes, hcrc, hops⟩
    obtain ⟨hop, henc⟩ := (operandsFor_eq_ok_iff hcrc op i).mp hops
    exact ⟨hop, f, henc, hbytes⟩
  · rintro ⟨hop, f, henc, hbytes⟩
    have hcrc := crcAgrees_of_encode henc
    exact ⟨f, hbytes, hcrc, (operandsFor_eq_ok_iff hcrc op i).mpr ⟨hop, henc⟩⟩

/-- Settles O42: an encoding is what the decoder accepts as its operation. -/
theorem decodeInvertsEncode : Obligations.DecodeInvertsEncode := by
  unfold Obligations.DecodeInvertsEncode
  intro i f henc
  exact (decode_eq_ok_iff_encode ..).mpr ⟨rfl, f, henc, rfl⟩

/-- Settles O43: the decoder accepts nothing but the encodings of the operation asked for. -/
theorem decodedRequestsAreEncodings : Obligations.DecodedRequestsAreEncodings := by
  unfold Obligations.DecodedRequestsAreEncodings
  intro op bytes i hdec
  exact (decode_eq_ok_iff_encode op bytes i).mp hdec

theorem decode_of_encode {i : Instr} {f : Frame} (h : encode i = some f) : decode i.opcode f.bytes = .ok i :=
  (decode_eq_ok_iff_encode ..).mpr ⟨rfl, f, h, rfl⟩

set_option maxRecDepth 20000 in
/-- Settles O45: seven of the words are the encodings of their operations, and the address 0x12 of the eighth names
no register. -/
theorem sampleWordsDecode : Obligations.SampleWordsDecode := by
  unfold Obligations.SampleWordsDecode
  have hwrite : encode (.writeReg .sensorConfig 0x1234#16 0x0#4) = some ⟨0x01#8, 0x12#8, 0x34#8, 0x0D#8⟩ := by decide
  have hframeWrite : encode (.frameWrite .magGainConfig 0x00FF#16 0xF#4) = some ⟨0x11#8, 0x00#8, 0xFF#8, 0xF1#8⟩ := by
    decide
  have hread : encode (.readReg .deviceConfig 0x1#4) = some ⟨0x80#8, 0x00#8, 0x00#8, 0x1A#8⟩ := by decide
  have hreadS16 : encode (.readRegS16 .xChResult 0x0#4) = some ⟨0x89#8, 0x00#8, 0x00#8, 0x00#8⟩ := by decide
  have hframeRead : encode (.frameRead .magnitudeResult 0x0#4) = some ⟨0x94#8, 0x00#8, 0x00#8, 0x0A#8⟩ := by decide
  have hspecial : encode (.specialRead 0x0#4) = some ⟨0x80#8, 0x00#8, 0x00#8, 0x0F#8⟩ := by decide
  have hframeSpecial : encode (.frameSpecial 0xF#4) = some ⟨0x80#8, 0x00#8, 0x00#8, 0xF9#8⟩ := by decide
  exact ⟨decode_of_encode hwrite, decode_of_encode hframeWrite, decode_of_encode hread, decode_of_encode hreadS16,
    decode_of_encode hframeRead, decode_of_encode hspecial, decode_of_encode hframeSpecial, by decide⟩

end Sys2Proof.Machine
end

section
/-! PROOFS. Which calls stand for an operation, and how the others are refused (30_encoding.md R68, R73, R78;
60_exceptions.md R213, R214). -/

namespace Sys2Proof.Machine

/-! ### The operands of a call -/

theorem resolveRegister_code_eq_ok_iff (a : Addr7) (r : Register) :
    resolveRegister (.code a) = .ok r ↔ addrCode r = a := by
  rw [← addrDecode_eq_some, resolveRegister]
  cases addrDecode a <;> simp

theorem exists_resolveRegister (operand : RegOperand) :
    (∃ r, resolveRegister operand = .ok r) ↔ operand.wellFormed = true := by
  cases operand with
  | name r => simp [resolveRegister, RegOperand.wellFormed]
  | code a =>
    simp only [resolveRegister_code_eq_ok_iff, RegOperand.wellFormed, ← addrDecode_isSome, Option.isSome_iff_exists,
      addrDecode_eq_some]

theorem exists_resolveCommand (cmd : Option Nat) :
    (∃ c, resolveCommand cmd = .ok c) ↔ commandInRange cmd = true := by
  cases cmd with
  | none => simp [resolveCommand, commandInRange]
  | some n => by_cases hn : n ≤ 15 <;> simp [resolveCommand, commandInRange, hn]

theorem exists_resolveOperands (operand : RegOperand) (cmd : Option Nat) (mk : Register → Nibble → Instr) :
    (∃ i, resolveOperands operand cmd mk = .ok i) ↔ (operand.wellFormed && commandInRange cmd) = true := by
  rw [Bool.and_eq_true, ← exists_resolveRegister, ← exists_resolveCommand, resolveOperands]
  cases resolveRegister operand <;> cases resolveCommand cmd <;> simp

theorem exists_resolveCommandOnly (cmd : Option Nat) (mk : Nibble → Instr) :
    (∃ i, resolveCommandOnly cmd mk = .ok i) ↔ commandInRange cmd = true := by
  rw [← exists_resolveCommand, resolveCommandOnly]
  cases resolveCommand cmd <;> simp

/-! ### Call words -/

/-- The fields of a request of one of the three forms (30_encoding.md R66, R74). -/
theorem exists_operandsFor_wordOpcode (x : Fields) :
    (∃ i, x.operandsFor x.wordOpcode = .ok i) ↔
      (codeIsDefined x.addr && (!x.readFlag || x.payload == 0x0000#16)) = true := by
  obtain ⟨flag, addr, payload, command⟩ := x
  rw [← addrDecode_isSome]
  cases flag with
  | false => cases hr : addrDecode addr <;> simp [Fields.wordOpcode, Fields.operandsFor, Fields.asWrite, hr]
  | true =>
    by_cases ha : addr = 0x00#7
    · have h0 : addrDecode 0x00#7 = some .deviceConfig := addrDecode_addrCode .deviceConfig
      by_cases hp : payload = 0x0000#16 <;>
        simp [Fields.wordOpcode, Fields.operandsFor, Fields.asSpecial, ha, h0, hp]
    · cases hr : addrDecode addr <;> by_cases hp : payload = 0x0000#16 <;>
        simp [Fields.wordOpcode, Fields.operandsFor, Fields.asRead, ha, hr, hp]

theorem payload_eq_zero (f : Frame) : (f.fields.payload == 0x0000#16) = (f.b1 == 0x00#8 && f.b2 == 0x00#8) := by
  rw [Bool.eq_iff_iff, Bool.and_eq_true, beq_iff_eq, beq_iff_eq, beq_iff_eq]
  constructor
  · exact bytes_of_half_zero f.b1 f.b2
  · rintro ⟨h1, h2⟩
    simp only [Frame.fields, h1, h2]
    rfl

theorem exists_decodeWord (bytes : List Byte) :
    (∃ i, decodeWord bytes = .ok i) ↔ wordWellFormed bytes = true := by
  cases hf : Frame.ofBytes bytes with
  | none =>
    have hw : wordWellFormed bytes = false := by
      unfold wordWellFormed
      split
      · simp [Frame.ofBytes] at hf
      · rfl
    simp [decodeWord, hf, hw]
  | some f =>
    obtain rfl := (ofBytes_eq_some bytes f).mp hf
    simp only [decodeWord, hf, exists_operandsFor_wordOpcode, payload_eq_zero]
    rfl

/-- Settles O38: call by call, a call resolves exactly when its operands do. -/
theorem callsResolveExactlyWhenWellFormed : Obligations.CallsResolveExactlyWhenWellFormed := by
  unfold Obligations.CallsResolveExactlyWhenWellFormed
  intro c
  cases c with
  | frameWrite r v cmd | writeReg r v cmd => exact (exists_resolveOperands r cmd _).symm
  | frameRead r cmd | readReg r cmd | readRegS16 r cmd => exact (exists_resolveOperands r cmd _).symm
  | frameSpecial cmd | specialRead cmd => exact (exists_resolveCommandOnly cmd _).symm
  | addrEncode r =>
    rw [Call.wellFormed, ← exists_resolveRegister, Call.resolve]
    cases resolveRegister r <;> simp
  | word bytes =>
    rw [Call.wellFormed, ← exists_decodeWord, Call.resolve]
    cases decodeWord bytes <;> simp
  | _ => simp [Call.wellFormed, Call.resolve]

/-- Settles O41: the five pseudo-operations resolve to the writes they stand for. -/
theorem pseudoOperationsExpand : Obligations.PseudoOperationsExpand := by
  unfold Obligations.PseudoOperationsExpand
  intro v
  exact ⟨rfl, rfl, rfl, rfl, rfl⟩

/-! ### How a call outside the grammar is refused -/

theorem step_of_unresolved {s : State} {c : Call} {rest : List Call} {why : CallReject} (hidle : s.txStep = .idle)
    (hcalls : s.calls = c :: rest) (hwhy : c.resolve = .error why) : step s = .refused (refusalOf why) := by
  simp only [step_of_idle s hidle, hcalls, hwhy]

theorem resolveRegister_undefined {a : Addr7} (h : a.toNat = 0x12 ∨ 0x15 ≤ a.toNat) :
    resolveRegister (.code a) = .error .notARegister := by
  have hnone : addrDecode a = none := (addrDecode_eq_none a).mpr (by have := a.isLt; omega)
  simp only [resolveRegister, hnone]

theorem resolveRegister_of_names {r : Register} {operand : RegOperand}
    (h : operand = .name r ∨ operand = .code (addrCode r)) : resolveRegister operand = .ok r := by
  rcases h with rfl | rfl
  · rfl
  · exact (resolveRegister_code_eq_ok_iff ..).mpr rfl

theorem resolveCommand_above {n : Nat} (h : 15 < n) : resolveCommand (some n) = .error .commandOutOfRange := by
  simp only [resolveCommand, if_neg (Nat.not_le.mpr h)]

/-- Settles O39: the operand that is no register, the command or the call word fails to resolve, with its reason. -/
theorem illFormedCallsAreRefusedByReason : Obligations.IllFormedCallsAreRefusedByReason := by
  unfold Obligations.IllFormedCallsAreRefusedByReason
  intro s c rest hidle hcalls
  refine ⟨fun a v cmd ha hc => ?_, fun r operand v n hoperand hn hc => ?_, fun bytes hbytes hc => ?_⟩
  · have hwhy : c.resolve = .error .notARegister := by
      simp only [List.mem_cons, List.not_mem_nil, or_false] at hc
      rcases hc with rfl | rfl | rfl | rfl | rfl | rfl <;>
        simp only [Call.resolve, resolveOperands, resolveRegister_undefined ha]
    exact step_of_unresolved hidle hcalls hwhy
  · have hwhy : c.resolve = .error .commandOutOfRange := by
      simp only [List.mem_cons, List.not_mem_nil, or_false] at hc
      rcases hc with rfl | rfl | rfl | rfl | rfl | rfl | rfl <;>
        simp only [Call.resolve, resolveOperands, resolveCommandOnly, resolveRegister_of_names hoperand,
          resolveCommand_above hn]
    exact step_of_unresolved hidle hcalls hwhy
  · subst hc
    cases hword : decodeWord bytes with
    | ok i =>
      have hwf := (exists_decodeWord bytes).mp ⟨i, hword⟩
      simp [hbytes] at hwf
    | error why =>
      exact ⟨why, step_of_unresolved hidle hcalls (why := .notARequest why) (by simp only [Call.resolve, hword])⟩

end Sys2Proof.Machine
end

section
/-! PROOFS. The family of 40_crc_engine.md: the engine's operations and the division they run. -/

namespace Sys2Proof.Machine

/-! ### CRC_UPDATE and CRC_FINISH by phase (40_crc_engine.md R101, R102) -/

section
variable {s : State}

theorem exec_crcUpdate_opened (bs : List Byte) (h : s.crcPhase = .opened) :
    exec (.crcUpdate bs) s = .next (deliver (.ok .unit) (engineUpdate bs s)) := if_pos h

theorem exec_crcUpdate_notOpened (bs : List Byte) (h : s.crcPhase ≠ .opened) :
    exec (.crcUpdate bs) s = .refused .crcNotOpen := if_neg h

theorem exec_crcFinish_opened (h : s.crcPhase = .opened) :
    exec .crcFinish s = .next (deliver (.ok (.u4 s.crcReg)) (engineFinish s)) := by
  rw [← crcOutput_eq s.crcReg]
  exact if_pos h

theorem exec_crcFinish_notOpened (h : s.crcPhase ≠ .opened) : exec .crcFinish s = .refused .crcNotOpen := if_neg h

end

/-! ### The division in the spec's words (40_crc_engine.md R101, R103) -/

theorem crcStep_eq_divisionStep (reg : Nibble) (bit : Bool) : crcStep reg bit = divisionStep reg bit := by
  revert reg bit; decide

theorem crcBytes_eq_divideBytes (reg : Nibble) (bs : List Byte) : crcBytes reg bs = divideBytes reg bs := by
  have hbyte : crcByte = fun reg b =>
      [7, 6, 5, 4, 3, 2, 1, 0].foldl (fun reg i => divisionStep reg (b.getLsbD i)) reg := by
    funext reg b
    simp only [crcByte, byteBits, List.foldl_cons, List.foldl_nil, crcStep_eq_divisionStep]
  rw [crcBytes, hbyte, divideBytes]

theorem crc4_eq_divideBytes (bs : List Byte) : crc4 bs = divideBytes 0xF#4 bs := crcBytes_eq_divideBytes 0xF#4 bs

/-- Settles O3: the engine's update runs the division, and its guard is the phase. -/
theorem crcUpdateDividesBitsWhenOpen : Obligations.CrcUpdateDividesBitsWhenOpen := by
  unfold Obligations.CrcUpdateDividesBitsWhenOpen
  intro bs s
  refine ⟨fun h => ?_, exec_crcUpdate_notOpened bs⟩
  rw [exec_crcUpdate_opened bs h, ← crcBytes_eq_divideBytes]
  rfl

/-- Settles O4: the remainder is the register, and the guard is the phase. -/
theorem crcFinishReturnsRemainderWhenOpen : Obligations.CrcFinishReturnsRemainderWhenOpen := by
  unfold Obligations.CrcFinishReturnsRemainderWhenOpen
  exact fun s => ⟨exec_crcFinish_opened, exec_crcFinish_notOpened⟩

/-- Settles O5: the reset opens the engine with CRC_INIT, so update and finish run and return CRC4. -/
theorem resetUpdateFinishComputesCrc4 : Obligations.ResetUpdateFinishComputesCrc4 := by
  unfold Obligations.ResetUpdateFinishComputesCrc4
  intro bs s
  refine ⟨_, _, _, exec_crcReset s, exec_crcUpdate_opened bs rfl, exec_crcFinish_opened rfl, ?_,
    crc4_eq_divideBytes bs⟩
  simp [deliver, engineFinish, engineUpdate, engineReset, crc4]

/-- Settles O8: the division of an appended list goes on from the first part's register (`crcBytes_append`). -/
theorem crcUpdatesCompose : Obligations.CrcUpdatesCompose := by
  unfold Obligations.CrcUpdatesCompose
  intro a b s h
  refine ⟨_, _, _, exec_crcUpdate_opened a h, exec_crcUpdate_opened b h, exec_crcUpdate_opened (a ++ b) h, ?_⟩
  simp only [deliver, engineUpdate, crcBytes_append]

/-! ### The nibble table (40_crc_engine.md R106) -/

/-- Four bits through the division are one look-up. -/
theorem crcStep_nibble (reg n : Nibble) :
    [n.getLsbD 3, n.getLsbD 2, n.getLsbD 1, n.getLsbD 0].foldl crcStep reg = tableAt (reg ^^^ n) := by
  revert reg n; decide

/-- A byte is fed high nibble first, each nibble from its bit 3 down. -/
theorem byteBits_eq_nibbles (b : Byte) :
    byteBits b =
      [(b.extractLsb' 4 4).getLsbD 3, (b.extractLsb' 4 4).getLsbD 2, (b.extractLsb' 4 4).getLsbD 1,
        (b.extractLsb' 4 4).getLsbD 0] ++
      [(b.extractLsb' 0 4).getLsbD 3, (b.extractLsb' 0 4).getLsbD 2, (b.extractLsb' 0 4).getLsbD 1,
        (b.extractLsb' 0 4).getLsbD 0] := by
  simp [byteBits]

theorem crcByte_eq_tableAt (reg : Nibble) (b : Byte) :
    crcByte reg b = tableAt (tableAt (reg ^^^ b.extractLsb' 4 4) ^^^ b.extractLsb' 0 4) := by
  rw [crcByte, byteBits_eq_nibbles, List.foldl_append, crcStep_nibble, crcStep_nibble]

/-- Settles O6: each byte is two look-ups, its high nibble first. -/
theorem crc4ByNibbleTable : Obligations.Crc4ByNibbleTable := by
  unfold Obligations.Crc4ByNibbleTable
  intro bs
  have hbyte : crcByte =
      fun reg b => tableAt (tableAt (reg ^^^ b.extractLsb' 4 4) ^^^ b.extractLsb' 0 4) := by
    funext reg b
    exact crcByte_eq_tableAt reg b
  rw [crc4, crcBytes, hbyte, Config.crcInit]

/-! ### Linearity (40_crc_engine.md R108) -/

theorem zipWith_xor_zeros (a : List Byte) : List.zipWith (· ^^^ ·) a (List.replicate a.length 0x00#8) = a := by
  induction a with
  | nil => rfl
  | cons x xs ih => simp [List.replicate_succ, ih]

/-- Settles O9: the register CRC_INIT is split off as 0x0 XOR CRC_INIT, dividing zeros. -/
theorem crc4IsAffine : Obligations.Crc4IsAffine := by
  unfold Obligations.Crc4IsAffine
  intro a b hlen
  have hzeros := crcBytes_xor 0#4 Config.crcInit (List.zipWith (· ^^^ ·) a b) (List.replicate a.length 0x00#8)
    (by simp [hlen])
  have hdiff := crcBytes_xor Config.crcInit Config.crcInit a b hlen
  rw [BitVec.xor_self] at hdiff
  calc crc4 (List.zipWith (· ^^^ ·) a b)
      = crcBytes 0#4 (List.zipWith (· ^^^ ·) a b) ^^^ crc4 (List.replicate a.length 0x00#8) := by
        have hlength : (List.zipWith (· ^^^ ·) a b).length = a.length := by simp [hlen]
        rw [crc4, crc4, ← hzeros, BitVec.zero_xor, ← hlength, zipWith_xor_zeros]
    _ = crc4 a ^^^ crc4 b ^^^ crc4 (List.replicate a.length 0x00#8) := by rw [hdiff]; rfl

/-! ### Errors in a frame (40_crc_engine.md R108, 42_response_validator.md R143) -/

/-- The frames' bytes XORed one by one. -/
def xorFrames (g d : Frame) : Frame := ⟨g.b0 ^^^ d.b0, g.b1 ^^^ d.b1, g.b2 ^^^ d.b2, g.b3 ^^^ d.b3⟩

/-- What an error `d` adds to the difference of recomputed and embedded CRC: the division of its first 28 bits from
0x0, and its change of the nibble. -/
def errorSyndrome (d : Frame) : Nibble := crcBytes 0#4 d.zeroCrc.bytes ^^^ embeddedCrc d

theorem ofWord_xor (v w : BitVec 32) : Frame.ofWord (v ^^^ w) = xorFrames (Frame.ofWord v) (Frame.ofWord w) := by
  simp only [Frame.ofWord, xorFrames, BitVec.extractLsb'_xor]

theorem flipBit_eq_xorFrames (j : Nat) (g : Frame) : flipBit j g = xorFrames g (Frame.ofWord (1#32 <<< j)) := by
  rw [flipBit, ofWord_xor, ofWord_word]

theorem responseCrc_xorFrames (g d : Frame) :
    responseCrc (xorFrames g d) = responseCrc g ^^^ crcBytes 0#4 d.zeroCrc.bytes := by
  have hmask : ∀ a b m : Byte, (a ^^^ b) &&& m = (a &&& m) ^^^ (b &&& m) := by
    intro a b m
    ext i
    simp [Bool.and_xor_distrib_right]
  have hlin := crcBytes_xor Config.crcInit 0#4 g.zeroCrc.bytes d.zeroCrc.bytes rfl
  rw [BitVec.xor_zero] at hlin
  rw [← crc4_zeroCrc, ← crc4_zeroCrc, crc4, crc4, ← hlin]
  simp [xorFrames, Frame.zeroCrc, Frame.bytes, hmask]

theorem embeddedCrc_xorFrames (g d : Frame) : embeddedCrc (xorFrames g d) = embeddedCrc g ^^^ embeddedCrc d := by
  simp only [embeddedCrc, xorFrames, BitVec.extractLsb'_xor]

/-- The difference of the two CRCs moves by the error's syndrome, whatever the frame. -/
theorem crcDifference_xorFrames (g d : Frame) :
    responseCrc (xorFrames g d) ^^^ embeddedCrc (xorFrames g d) =
      (responseCrc g ^^^ embeddedCrc g) ^^^ errorSyndrome d := by
  rw [responseCrc_xorFrames, embeddedCrc_xorFrames, errorSyndrome]
  ac_rfl

set_option maxRecDepth 20000 in
theorem errorSyndrome_singleBit {j : Nat} (hlow : 4 ≤ j) (hhigh : j < 32) :
    errorSyndrome (Frame.ofWord (1#32 <<< j)) ≠ 0#4 := by
  have hall : ∀ j : Fin 32, 4 ≤ j.val → errorSyndrome (Frame.ofWord (1#32 <<< j.val)) ≠ 0#4 := by decide
  exact hall ⟨j, hhigh⟩ hlow

set_option maxRecDepth 20000 in
theorem errorSyndrome_fifteenApart {i : Nat} (hlow : 4 ≤ i) (hhigh : i + 15 < 32) :
    errorSyndrome (Frame.ofWord (1#32 <<< i)) = errorSyndrome (Frame.ofWord (1#32 <<< (i + 15))) := by
  have hall : ∀ i : Fin 17, 4 ≤ i.val → errorSyndrome (Frame.ofWord (1#32 <<< i.val)) =
      errorSyndrome (Frame.ofWord (1#32 <<< (i.val + 15))) := by decide
  exact hall ⟨i, by omega⟩ hlow

/-- Settles O10: a passing frame has no difference, so the flipped bit's nonzero syndrome is the new difference. -/
theorem singleBitErrorsAreDetected : Obligations.SingleBitErrorsAreDetected := by
  unfold Obligations.SingleBitErrorsAreDetected
  intro g j hlow hhigh hpass hflipped
  have hdiff := crcDifference_xorFrames g (Frame.ofWord (1#32 <<< j))
  rw [← flipBit_eq_xorFrames, hflipped, hpass, BitVec.xor_self, BitVec.xor_self, BitVec.zero_xor] at hdiff
  exact errorSyndrome_singleBit hlow hhigh hdiff.symm

/-- Settles O11: the two flipped bits have one syndrome, which cancels. -/
theorem twoBitErrorsFifteenApartPass : Obligations.TwoBitErrorsFifteenApartPass := by
  unfold Obligations.TwoBitErrorsFifteenApartPass
  rintro g i j hlow hhigh rfl
  have hdiff : responseCrc (flipBit (i + 15) (flipBit i g)) ^^^ embeddedCrc (flipBit (i + 15) (flipBit i g)) =
      responseCrc g ^^^ embeddedCrc g := by
    rw [flipBit_eq_xorFrames (i + 15), crcDifference_xorFrames, flipBit_eq_xorFrames, crcDifference_xorFrames,
      errorSyndrome_fifteenApart hlow hhigh, BitVec.xor_assoc, BitVec.xor_self, BitVec.xor_zero]
  rw [← BitVec.xor_eq_zero_iff, hdiff, BitVec.xor_eq_zero_iff]

end Sys2Proof.Machine
end

section
/-! PROOFS. CRC4 as a remainder over GF(2) (40_crc_engine.md R105). -/

namespace Sys2Proof.Machine

open Polynomial

/-- A bit as a coefficient. -/
noncomputable def bitCoeff (b : Bool) : (ZMod 2)[X] := C (if b then 1 else 0)

theorem bitCoeff_xor (x y : Bool) : bitCoeff (x ^^ y) = bitCoeff x + bitCoeff y := by
  cases x <;> cases y <;> simp [bitCoeff, CharTwo.add_self_eq_zero]

theorem bitsPoly_append (bits : List Bool) (b : Bool) : bitsPoly (bits ++ [b]) = bitsPoly bits * X + bitCoeff b := by
  simp [bitsPoly, bitCoeff]

/-- A register's polynomial, its bit 3 the coefficient of X ^ 3. -/
theorem bitsPoly_nibble (reg : Nibble) :
    bitsPoly (bitsOf reg) = bitCoeff (reg.getLsbD 3) * X ^ 3 + bitCoeff (reg.getLsbD 2) * X ^ 2 +
      bitCoeff (reg.getLsbD 1) * X + bitCoeff (reg.getLsbD 0) := by
  have hbits : bitsOf reg = [] ++ [reg.getLsbD 3] ++ [reg.getLsbD 2] ++ [reg.getLsbD 1] ++ [reg.getLsbD 0] := rfl
  rw [hbits]
  simp only [bitsPoly_append]
  simp only [bitsPoly, List.foldl_nil]
  ring

theorem degree_nibble_lt (reg : Nibble) : (bitsPoly (bitsOf reg)).degree < 4 := by
  have hle : (bitsPoly (bitsOf reg)).degree ≤ 3 := by
    rw [bitsPoly_nibble]
    unfold bitCoeff
    compute_degree
  exact lt_of_le_of_lt hle (by decide)

/-- The crcGenerator x^4 + x + 1. -/
noncomputable def crcGenerator : (ZMod 2)[X] := X ^ 4 + X + 1

theorem crcGenerator_monic : crcGenerator.Monic := by
  unfold crcGenerator
  monicity!

theorem crcGenerator_degree : crcGenerator.degree = 4 := by
  unfold crcGenerator
  compute_degree!

theorem crcStep_bits (reg : Nibble) (b : Bool) :
    (crcStep reg b).getLsbD 3 = reg.getLsbD 2 ∧ (crcStep reg b).getLsbD 2 = reg.getLsbD 1 ∧
    (crcStep reg b).getLsbD 1 = (reg.getLsbD 0 ^^ (b ^^ reg.getLsbD 3)) ∧
    (crcStep reg b).getLsbD 0 = (b ^^ reg.getLsbD 3) := by
  revert reg b; decide

/-- One step multiplies the register by X and adds the input bit at X ^ 4, up to a multiple of the crcGenerator. -/
theorem crcGenerator_dvd_step (reg : Nibble) (b : Bool) :
    crcGenerator ∣ bitsPoly (bitsOf reg) * X + bitCoeff b * X ^ 4 - bitsPoly (bitsOf (crcStep reg b)) := by
  obtain ⟨h3, h2, h1, h0⟩ := crcStep_bits reg b
  refine ⟨bitCoeff b + bitCoeff (reg.getLsbD 3), ?_⟩
  rw [CharTwo.sub_eq_add, bitsPoly_nibble, bitsPoly_nibble, h3, h2, h1, h0]
  simp only [bitCoeff_xor, crcGenerator]
  have htwo : (2 : (ZMod 2)[X]) = 0 := CharTwo.two_eq_zero
  linear_combination
    (bitCoeff (reg.getLsbD 2) * X ^ 3 + bitCoeff (reg.getLsbD 1) * X ^ 2 + bitCoeff (reg.getLsbD 0) * X) * htwo

/-- The division of a bit sequence leaves a remainder of the register and the bits (40_crc_engine.md R105). -/
theorem crcGenerator_dvd_division (reg : Nibble) (bits : List Bool) :
    crcGenerator ∣ bitsPoly (bitsOf reg) * X ^ bits.length + bitsPoly bits * X ^ 4 -
      bitsPoly (bitsOf (bits.foldl crcStep reg)) := by
  induction bits using List.reverseRecOn with
  | nil => simp [bitsPoly]
  | append_singleton bits b ih =>
    rw [List.foldl_append, List.foldl_cons, List.foldl_nil, bitsPoly_append, List.length_append, List.length_singleton]
    have hstep := dvd_add (dvd_mul_of_dvd_left ih X) (crcGenerator_dvd_step (bits.foldl crcStep reg) b)
    convert hstep using 1
    ring

theorem bitsOf_byte (b : Byte) : bitsOf b = byteBits b := rfl

theorem length_flatMap_byteBits (bs : List Byte) : (bs.flatMap byteBits).length = 8 * bs.length := by
  induction bs with
  | nil => rfl
  | cons b bs ih => simp [ih, byteBits]; omega

/-- Settles O7: the register is of degree below 4 and differs from the dividend by a multiple of the crcGenerator. -/
theorem crc4IsPolynomialRemainder : Obligations.Crc4IsPolynomialRemainder := by
  unfold Obligations.Crc4IsPolynomialRemainder
  intro bs
  have hdvd := crcGenerator_dvd_division Config.crcInit (bs.flatMap byteBits)
  rw [← crcBytes_eq_bits, length_flatMap_byteBits] at hdvd
  have hsmall : bitsPoly (bitsOf (crc4 bs)) %ₘ crcGenerator = bitsPoly (bitsOf (crc4 bs)) :=
    (modByMonic_eq_self_iff crcGenerator_monic).mpr (crcGenerator_degree ▸ degree_nibble_lt _)
  exact hsmall.symm.trans (modByMonic_eq_of_dvd_sub crcGenerator_monic hdvd).symm

end Sys2Proof.Machine
end

section
/-! PROOFS. The family of 43_transactions.md: what the four transactions do for each answer of the transport. -/

namespace Sys2Proof.Machine

theorem eq_of_exec_next {i : Instr} {s a b : State} (ha : exec i s = .next a) (hb : exec i s = .next b) : a = b :=
  Host.Outcome.next.inj (ha.symm.trans hb)

/-- The decode functions are the spec's arithmetic (43_transactions.md R170 to R173). -/
theorem txDecode_eq_decodedBy (t : Transaction) : txDecode t = decodedBy t := by
  have hreg : ∀ g, regValue g = BitVec.ofNat 16 (256 * g.b1.toNat + g.b2.toNat) := fun g => by
    rw [← regValue_toNat, BitVec.ofNat_toNat, BitVec.setWidth_eq]
  funext g
  cases t with
  | writeReg r v c => rfl
  | readReg r c => rw [txDecode, hreg, decodedBy]
  | readRegS16 r c => rw [txDecode, asS16_toInt, hreg, decodedBy]
  | specialRead c =>
    rw [txDecode, decodedBy, ← dualFirst_toNat, ← dualSecond_toNat, BitVec.ofNat_toNat, BitVec.ofNat_toNat,
      BitVec.setWidth_eq, BitVec.setWidth_eq]

/-- The whole effect of a transaction in the spec's own words. -/
theorem exec_transaction_spec (t : Transaction) (s : State) :
    exec t.instr s = .next (afterTransaction s t (requestOf t) (decodedBy t)) := by
  rw [exec_transaction, txDecode_eq_decodedBy]

/-- Settles O22: WRITE_REG is the transaction with the write request and decode unit. -/
theorem writeRegRunsProtocol : Obligations.WriteRegRunsProtocol := by
  unfold Obligations.WriteRegRunsProtocol
  intro r v c s
  exact exec_transaction_spec (.writeReg r v c) s

/-- Settles O23: READ_REG is the transaction with the read request and the unsigned reading. -/
theorem readRegRunsProtocol : Obligations.ReadRegRunsProtocol := by
  unfold Obligations.ReadRegRunsProtocol
  intro r c s
  exact exec_transaction_spec (.readReg r c) s

/-- Settles O24: READ_REG_S16 is the transaction with the read request and the signed reading. -/
theorem readRegS16RunsProtocol : Obligations.ReadRegS16RunsProtocol := by
  unfold Obligations.ReadRegS16RunsProtocol
  intro r c s
  exact exec_transaction_spec (.readRegS16 r c) s

/-- Settles O25: SPECIAL_READ is the transaction with the special request and the 12-bit pair. -/
theorem specialReadRunsProtocol : Obligations.SpecialReadRunsProtocol := by
  unfold Obligations.SpecialReadRunsProtocol
  intro c s
  exact exec_transaction_spec (.specialRead c) s

/-! ### One lemma per answer of the transport -/

section
variable {t : Transaction} {s : State}

theorem exec_transaction_neverReturns (h : s.nextAnswer (requestOf t) = .neverReturns) :
    exec t.instr s = .next (hung s t (requestOf t)) := by
  rw [exec_transaction_spec, afterTransaction, h]

theorem exec_transaction_err {e : TransportError} (h : s.nextAnswer (requestOf t) = .returns (.err e)) :
    exec t.instr s =
      .next (returned s (requestOf t) (.err e) (embeddedCrc (requestOf t)) (.err (.transportFault e))) := by
  rw [exec_transaction_spec, afterTransaction, h]

theorem exec_transaction_ok {g : Frame} (h : s.nextAnswer (requestOf t) = .returns (.ok g)) :
    exec t.instr s = .next (returned s (requestOf t) (.ok g) (responseCrc g)
      (if responseCrc g = embeddedCrc g then .ok (decodedBy t g) else .err .integrityFault)) := by
  rw [exec_transaction_spec, afterTransaction, h]

theorem exec_transaction_valid {g : Frame} (h : s.nextAnswer (requestOf t) = .returns (.ok g))
    (hvalid : responseCrc g = embeddedCrc g) :
    exec t.instr s = .next (returned s (requestOf t) (.ok g) (responseCrc g) (.ok (decodedBy t g))) := by
  rw [exec_transaction_ok h, if_pos hvalid]

theorem eq_requestOf_of_encode {req : Frame} (h : encode t.instr = some req) : req = requestOf t :=
  Option.some.inj (h.symm.trans (encode_transaction t))

end

/-- Settles O26: a transaction that is back at Idle got an answer; an error and a response each end in one state. -/
theorem returnedTransactionBracketsOneTransfer : Obligations.ReturnedTransactionBracketsOneTransfer := by
  unfold Obligations.ReturnedTransactionBracketsOneTransfer
  intro t s s' hexec hidle
  cases hans : s.nextAnswer (requestOf t) with
  | neverReturns =>
    obtain rfl := eq_of_exec_next (exec_transaction_neverReturns hans) hexec
    simp [hung] at hidle
  | returns out =>
    cases out with
    | err e =>
      obtain rfl := eq_of_exec_next (exec_transaction_err hans) hexec
      exact ⟨requestOf t, .err e, _, encode_transaction t, hans, rfl, rfl, rfl, List.drop_one,
        by simp [returned], by simp, by simp⟩
    | ok g =>
      obtain rfl := eq_of_exec_next (exec_transaction_ok hans) hexec
      refine ⟨requestOf t, .ok g, _, encode_transaction t, hans, rfl, rfl, rfl, List.drop_one, by simp, ?_, ?_⟩
      · rintro _ ⟨⟩
        by_cases hvalid : responseCrc g = embeddedCrc g <;> simp [hvalid]
      · rintro _ ⟨⟩ hinvalid
        exact if_neg hinvalid

theorem step_hung {t : Transaction} {s : State} {req : Frame} (h : s.nextAnswer req = .neverReturns) :
    step (hung s t req) = .fault .transferNeverReturns := by
  have hans : (hung s t req).nextAnswer req = .neverReturns := (nextAnswer_hung ..).trans h
  have hfault : txFault (hung s t req) = some .transferNeverReturns := by
    simp only [txFault, hung] at hans ⊢
    simp only [hans]
  rw [step_of_running _ (by simp [hung]), hfault]

/-- Settles O27: without an answer the transaction stands hung at S4, and from there its step is the fault. -/
theorem hungTransferHoldsChipSelectLow : Obligations.HungTransferHoldsChipSelectLow := by
  unfold Obligations.HungTransferHoldsChipSelectLow
  intro t s req henc hans
  obtain rfl := eq_requestOf_of_encode henc
  exact ⟨_, exec_transaction_neverReturns hans, rfl, rfl, rfl, rfl, rfl, step_hung hans⟩

/-- Settles O32: both reads send one request and return, and a half-word is its two's-complement reading's 16 bits. -/
theorem signedAndUnsignedReadsAgree : Obligations.SignedAndUnsignedReadsAgree := by
  unfold Obligations.SignedAndUnsignedReadsAgree
  intro r c s g hans hvalid
  let u : Half := BitVec.ofNat 16 (256 * g.b1.toNat + g.b2.toNat)
  have hlow : -32768 ≤ u.toInt := BitVec.le_toInt u
  have hhigh : u.toInt < 32768 := BitVec.toInt_lt
  exact ⟨_, _, u, u.toInt, exec_transaction_valid (t := .readReg r c) hans hvalid,
    exec_transaction_valid (t := .readRegS16 r c) hans hvalid, rfl, rfl, BitVec.ofInt_toInt, hlow,
    Int.le_of_lt_add_one hhigh, rfl⟩

/-- Settles O16: the two layouts and the two requests are one, so only the decode functions differ. -/
theorem specialReadAliasesDeviceConfigRead : Obligations.SpecialReadAliasesDeviceConfigRead := by
  unfold Obligations.SpecialReadAliasesDeviceConfigRead
  intro c s g
  refine ⟨?_, fun hans hvalid => ?_⟩
  · rw [exec_frameSpecial, exec_frameRead, buildFrame_layout, buildFrame_layout]
    simp only [requestOf, specialRequest_eq_readRequest]
  · exact ⟨_, _, _, _, _, exec_transaction_valid (t := .specialRead c) hans hvalid,
      exec_transaction_valid (t := .readReg .deviceConfig c) hans hvalid, rfl, rfl⟩

end Sys2Proof.Machine
end

section
/-! PROOFS. The frames of whole operations: what they refuse, what they leave unchanged, and what they do not read. -/

namespace Sys2Proof.Machine

/-! ### The whole effect of VALIDATE (42_response_validator.md R140) -/

/-- The result of VALIDATE: the frame with its nibble zeroed where the CRCs agree. -/
def validationResult (g : Frame) : OpResult :=
  if responseCrc g = embeddedCrc g then .ok (.frame g.zeroCrc) else .err .integrityFault

theorem exec_validate (g : Frame) (s : State) :
    exec (.validate g) s =
      .next (endOperation (validationResult g) { s with crcReg := responseCrc g, crcPhase := .closed }) :=
  execValidate_eq g s

/-! ### Outcomes -/

/-- CRC_UPDATE and CRC_FINISH on an engine that is not Open: the calls that R213 refuses with CrcNotOpen. -/
def UnopenedCrcOperation (i : Instr) (s : State) : Prop :=
  s.crcPhase ≠ .opened ∧ (i.opcode = .crcUpdate ∨ i.opcode = .crcFinish)

/-- Every operation answers a next state, or is refused with CrcNotOpen (60_exceptions.md R212, R213). -/
theorem exec_outcome (i : Instr) (s : State) :
    ((∃ s', exec i s = .next s') ∧ ¬ UnopenedCrcOperation i s) ∨
    (exec i s = .refused .crcNotOpen ∧ UnopenedCrcOperation i s) := by
  cases i with
  | crcUpdate bs =>
    by_cases h : s.crcPhase = .opened
    · exact .inl ⟨⟨_, exec_crcUpdate_opened bs h⟩, fun hnot => hnot.1 h⟩
    · exact .inr ⟨exec_crcUpdate_notOpened bs h, h, .inl rfl⟩
  | crcFinish =>
    by_cases h : s.crcPhase = .opened
    · exact .inl ⟨⟨_, exec_crcFinish_opened h⟩, fun hnot => hnot.1 h⟩
    · exact .inr ⟨exec_crcFinish_notOpened h, h, .inr rfl⟩
  | _ => exact .inl ⟨⟨_, rfl⟩, by simp [UnopenedCrcOperation, Instr.opcode]⟩

theorem exec_ne_fault (i : Instr) (s : State) (q : Fault) : exec i s ≠ .fault q := by
  rcases exec_outcome i s with ⟨⟨s', hnext⟩, -⟩ | ⟨hrefused, -⟩
  · simp [hnext]
  · simp [hrefused]

theorem exec_eq_refused_iff (i : Instr) (s : State) (q : Refusal) :
    exec i s = .refused q ↔ q = .crcNotOpen ∧ UnopenedCrcOperation i s := by
  rcases exec_outcome i s with ⟨⟨s', hnext⟩, hnot⟩ | ⟨hrefused, hunopened⟩
  · simp [hnext, hnot]
  · simp [hrefused, hunopened, eq_comm]

/-- Settles O53: the outcomes of an operation are a next state and CrcNotOpen. -/
theorem onlyUnopenedCrcOperationsAreRefused : Obligations.OnlyUnopenedCrcOperationsAreRefused := by
  unfold Obligations.OnlyUnopenedCrcOperationsAreRefused
  exact fun i s => ⟨exec_ne_fault i s, exec_eq_refused_iff i s⟩

/-! ### Operations that close the engine -/

theorem afterTransaction_crcPhase (s : State) (t : Transaction) :
    (afterTransaction s t (requestOf t) (txDecode t)).crcPhase = .closed := by
  rcases afterTransaction_cases s t with ⟨-, hhung⟩ | ⟨out, k, r, hreturned⟩
  · rw [hhung]; rfl
  · rw [hreturned]; rfl

/-- A FRAME_* operation builds the frame of a transaction's layout. -/
theorem exists_layout_of_frameOpcode {i : Instr} (h : i.opcode ∈ [Opcode.frameWrite, .frameRead, .frameSpecial]) :
    ∃ t : Transaction, ∀ s, exec i s = .next (buildFrame t.layout s) := by
  cases i with
  | frameWrite r v c => exact ⟨.writeReg r v c, exec_frameWrite r v c⟩
  | frameRead r c => exact ⟨.readReg r c, exec_frameRead r c⟩
  | frameSpecial c => exact ⟨.specialRead c, exec_frameSpecial c⟩
  | _ => simp [Instr.opcode] at h

theorem buildFrame_crcPhase (f : Frame) (s : State) : (buildFrame f s).crcPhase = .closed := rfl

/-- Settles O54: each of the operations ends its own CRC computation, and a Closed engine refuses the caller's. -/
theorem frameOperationsCloseCallersComputation : Obligations.FrameOperationsCloseCallersComputation := by
  unfold Obligations.FrameOperationsCloseCallersComputation
  intro i s hi
  have hclosed : ∃ s', exec i s = .next s' ∧ s'.crcPhase = .closed := by
    cases i with
    | writeReg r v c => exact ⟨_, exec_transaction (.writeReg r v c) s, afterTransaction_crcPhase ..⟩
    | readReg r c => exact ⟨_, exec_transaction (.readReg r c) s, afterTransaction_crcPhase ..⟩
    | readRegS16 r c => exact ⟨_, exec_transaction (.readRegS16 r c) s, afterTransaction_crcPhase ..⟩
    | specialRead c => exact ⟨_, exec_transaction (.specialRead c) s, afterTransaction_crcPhase ..⟩
    | frameWrite r v c => exact ⟨_, exec_frameWrite r v c s, buildFrame_crcPhase ..⟩
    | frameRead r c => exact ⟨_, exec_frameRead r c s, buildFrame_crcPhase ..⟩
    | frameSpecial c => exact ⟨_, exec_frameSpecial c s, buildFrame_crcPhase ..⟩
    | validate g => exact ⟨_, exec_validate g s, endOperation_crcPhase ..⟩
    | _ => simp [Instr.opcode] at hi
  obtain ⟨s', hexec, hphase⟩ := hclosed
  have hnotOpen : s'.crcPhase ≠ .opened := by simp [hphase]
  exact ⟨s', hexec, hphase, (exec_eq_refused_iff ..).mpr ⟨rfl, hnotOpen, .inr rfl⟩,
    fun bs => (exec_eq_refused_iff ..).mpr ⟨rfl, hnotOpen, .inl rfl⟩⟩

/-! ### What an operation leaves unchanged -/

/-- At rest there is nothing to discard: the end of an operation only delivers its result. -/
theorem endOperation_of_atRest {s : State} (h : AtRest s) (r : OpResult) : endOperation r s = deliver r s := by
  obtain ⟨hstep, hrunning, hf, hout, hrx, hcalc⟩ := h
  cases s
  simp_all [endOperation, deliver]

theorem AtRest.withEngine {s : State} (h : AtRest s) (k : Nibble) (p : CrcPhase) :
    AtRest { s with crcReg := k, crcPhase := p } := h

/-- Settles O52: an operation that is no transaction delivers a result over the engine's changes, and DECODE_* and
ADDR_* deliver it alone. -/
theorem componentOperationsTouchOnlyTheEngine : Obligations.ComponentOperationsTouchOnlyTheEngine := by
  unfold Obligations.ComponentOperationsTouchOnlyTheEngine
  intro i s s' hrest hcomponent hexec
  constructor
  · rcases exec_cases i s s' hexec with ⟨t, ht, -⟩ | ⟨k, p, r, rfl⟩ | ⟨k, p, r, rfl⟩
    · exact absurd ht (hcomponent t)
    · exact ⟨r, rfl⟩
    · rw [endOperation_of_atRest (hrest.withEngine k p)]
      exact ⟨r, rfl⟩
  · intro hop
    cases i with
    | decodeReg g | decodeRegS16 g | decodeDual g | addrEncode r | addrDecode code => cases hexec; exact ⟨rfl, rfl⟩
    | _ => simp [Instr.opcode] at hop

/-! ### The chip-select driver's reports (43_transactions.md R163) -/

theorem afterTransaction_withReports (s : State) (t : Transaction) (reports : List GpioReport) :
    ∃ left, afterTransaction { s with gpioReports := reports } t (requestOf t) (txDecode t) =
      { afterTransaction s t (requestOf t) (txDecode t) with gpioReports := left } := by
  have hans : State.nextAnswer { s with gpioReports := reports } (requestOf t) = s.nextAnswer (requestOf t) := rfl
  unfold afterTransaction
  rw [hans]
  cases s.nextAnswer (requestOf t) with
  | neverReturns => exact ⟨_, rfl⟩
  | returns out => cases out <;> exact ⟨_, rfl⟩

/-- Settles O28: only a transaction takes reports, and its next state holds no other trace of them. -/
theorem chipSelectErrorsAreDiscarded : Obligations.ChipSelectErrorsAreDiscarded := by
  unfold Obligations.ChipSelectErrorsAreDiscarded
  intro i s reports
  refine ⟨fun s' hexec => ?_, fun q hrefused => ?_⟩
  · have htransaction : ∀ t : Transaction, exec t.instr s = .next s' →
        ∃ left, exec t.instr { s with gpioReports := reports } = .next { s' with gpioReports := left } := by
      intro t h
      obtain rfl := eq_of_exec_next (exec_transaction t s) h
      obtain ⟨left, hleft⟩ := afterTransaction_withReports s t reports
      exact ⟨left, by rw [exec_transaction, hleft]⟩
    cases i with
    | writeReg r v c => exact htransaction (.writeReg r v c) hexec
    | readReg r c => exact htransaction (.readReg r c) hexec
    | readRegS16 r c => exact htransaction (.readRegS16 r c) hexec
    | specialRead c => exact htransaction (.specialRead c) hexec
    | crcUpdate bs =>
      by_cases h : s.crcPhase = .opened
      · rw [exec_crcUpdate_opened bs h] at hexec
        cases hexec
        exact ⟨reports, exec_crcUpdate_opened bs h⟩
      · rw [exec_crcUpdate_notOpened bs h] at hexec
        cases hexec
    | crcFinish =>
      by_cases h : s.crcPhase = .opened
      · rw [exec_crcFinish_opened h] at hexec
        cases hexec
        exact ⟨reports, exec_crcFinish_opened h⟩
      · rw [exec_crcFinish_notOpened h] at hexec
        cases hexec
    | validate g =>
      obtain rfl := eq_of_exec_next (exec_validate g s) hexec
      exact ⟨reports, exec_validate g _⟩
    | _ => cases hexec; exact ⟨reports, rfl⟩
  · exact (exec_eq_refused_iff i _ q).mpr ((exec_eq_refused_iff i s q).mp hrefused)

end Sys2Proof.Machine
end

section
/-! PROOFS. The families of 42_response_validator.md and 44_register_address_decoder.md: VALIDATE, the decode
functions, and the address map. -/

namespace Sys2Proof.Machine

/-! ### VALIDATE (42_response_validator.md R140 to R142) -/

/-- Settles O12: the recomputed CRC does not depend on the nibble `j`, which is the embedded one. -/
theorem exactlyOneNibblePasses : Obligations.ExactlyOneNibblePasses := by
  unfold Obligations.ExactlyOneNibblePasses
  intro b0 b1 b2 c
  refine ⟨_, rfl, fun j s => ⟨_, exec_validate .., ?_⟩⟩
  have hzero : Frame.zeroCrc ⟨b0, b1, b2, c ++ j⟩ = ⟨b0, b1, b2, c ++ 0x0#4⟩ := by
    rw [Frame.zeroCrc, zeroCrc_byte]
  have hrecomputed : responseCrc ⟨b0, b1, b2, c ++ j⟩ = divideBytes 0xF#4 [b0, b1, b2, c ++ 0x0#4] := by
    rw [← crc4_zeroCrc, hzero, crc4_eq_divideBytes, Frame.bytes]
  have hembedded : embeddedCrc ⟨b0, b1, b2, c ++ j⟩ = j := crcNibble_byte c j
  simp only [endOperation_results, validationResult, hrecomputed, hembedded, hzero, eq_comm (a := j)]

/-- Settles O18: at rest the end of VALIDATE delivers its result and leaves the rest. -/
theorem validateComparesEmbeddedCrc : Obligations.ValidateComparesEmbeddedCrc := by
  unfold Obligations.ValidateComparesEmbeddedCrc
  intro g s hrest
  rw [exec_validate, endOperation_of_atRest (hrest.withEngine _ _)]
  rfl

theorem responseCrc_requestOf (t : Transaction) : responseCrc (requestOf t) = embeddedCrc (requestOf t) := by
  cases t <;> exact (embeddedCrc_sealedFrame ..).symm

/-- Settles O17: the frame returned is a sealed request, whose two CRCs agree. -/
theorem builtFramesPassValidation : Obligations.BuiltFramesPassValidation := by
  unfold Obligations.BuiltFramesPassValidation
  intro i s s' hi _ hexec
  obtain ⟨t, ht⟩ := exists_layout_of_frameOpcode hi
  obtain rfl := eq_of_exec_next (ht s) hexec
  refine ⟨requestOf t, _, ?_, exec_validate .., ?_⟩
  · rw [buildFrame_layout]
  · rw [endOperation_results, validationResult, if_pos (responseCrc_requestOf t)]
    rfl

/-! ### The decode functions (42_response_validator.md R144, R145) -/

theorem exec_decodeReg (g : Frame) (s : State) :
    exec (.decodeReg g) s = .next (deliver (.ok (.u16 (regValue g))) s) := rfl

theorem exec_decodeRegS16 (g : Frame) (s : State) :
    exec (.decodeRegS16 g) s = .next (deliver (.ok (.s16 (asS16 (regValue g)))) s) := rfl

/-- Settles O19: the half-word returned is `regValue`, whose number is big-endian. -/
theorem decodeRegIsBigEndian : Obligations.DecodeRegIsBigEndian := by
  unfold Obligations.DecodeRegIsBigEndian
  intro g s
  exact ⟨regValue g, regValue_toNat g, exec_decodeReg g s⟩

/-- Settles O20: `as_s16` of that half-word's number. -/
theorem decodeRegS16IsTwosComplement : Obligations.DecodeRegS16IsTwosComplement := by
  unfold Obligations.DecodeRegS16IsTwosComplement
  intro g s
  have hsigned : asS16 (regValue g) = if 256 * g.b1.toNat + g.b2.toNat < 0x8000
      then 256 * (g.b1.toNat : Int) + g.b2.toNat else 256 * (g.b1.toNat : Int) + g.b2.toNat - 0x10000 := by
    rw [asS16, regValue_toNat]
    push_cast
    rfl
  rw [exec_decodeRegS16, hsigned]
  rfl

/-! ### The address map (44_register_address_decoder.md R190, R192, R194) -/

theorem exec_addrEncode (r : Register) (s : State) :
    exec (.addrEncode r) s = .next (deliver (.ok (.u7 (addrCode r))) s) := rfl

theorem addrCode_of_mem_registerTable :
    ∀ row ∈ registerTable, addrCode row.1 = BitVec.ofNat 7 row.2 := by decide

theorem exists_row (r : Register) : ∃ row ∈ registerTable, row.1 = r := by
  cases r <;> decide

/-- Settles O33: ADDR_ENCODE returns the model's code, which is the table's in each of the 20 rows. -/
theorem addrEncodeGivesTableCode : Obligations.AddrEncodeGivesTableCode := by
  unfold Obligations.AddrEncodeGivesTableCode
  refine ⟨rfl, fun r => ?_, fun r a s hrow => ?_⟩
  · obtain ⟨⟨r, a⟩, hrow, rfl⟩ := exists_row r
    exact ⟨a, hrow⟩
  · have hcode : addrCode r = BitVec.ofNat 7 a := addrCode_of_mem_registerTable (r, a) hrow
    rw [exec_addrEncode, hcode]
    rfl

/-- Settles O35: the map found by search inverts the codes, and its 128 values are counted. -/
theorem addressMapsAreInverse : Obligations.AddressMapsAreInverse := by
  unfold Obligations.AddressMapsAreInverse
  exact ⟨addrDecode_addrCode, fun code r => (addrDecode_eq_some code r).mp, by decide⟩

end Sys2Proof.Machine
end

section
/-! PROOFS. The protocol steps of a running transaction, said once as a relation, and the claims about them
(43_transactions.md R160, R161; 10_state.md R29). -/

namespace Sys2Proof.Machine

/-- The steps S1 to S8 of the protocol: what each needs and the state it leaves (43_transactions.md R161). -/
inductive ProtocolStep (s : State) : State → Prop
  | layOut (t : Transaction) (hstep : s.txStep = .s1) (hrunning : s.running = some t) :
      ProtocolStep s { s with f := some t.layout, txStep := .s2 }
  | insertCrc (f : Frame) (hstep : s.txStep = .s2) (hf : s.f = some f) :
      ProtocolStep s { s with
        f := some (f.orCrc (crc4 f.bytes)), crcReg := crc4 f.bytes, crcPhase := .closed, txStep := .s3 }
  | assertCs (hstep : s.txStep = .s3) : ProtocolStep s { csSet .low s with txStep := .s4 }
  | transfer (f : Frame) (out : XferOutcome) (hstep : s.txStep = .s4) (hf : s.f = some f)
      (hanswer : s.nextAnswer f = .returns out) :
      ProtocolStep s { transferReturned f out s with txStep := .s5 }
  | deassertCs (g : Frame) (hstep : s.txStep = .s5) (hout : s.out = some (.ok g)) :
      ProtocolStep s { csSet .high s with out := none, txStep := .s6 }
  | fail (e : TransportError) (hstep : s.txStep = .s5) (hout : s.out = some (.err e)) :
      ProtocolStep s (endOperation (.err (.transportFault e)) (csSet .high s))
  | extract (g : Frame) (hstep : s.txStep = .s6) (hf : s.f = some g) :
      ProtocolStep s { s with rxCrc := some g.crcNibble, f := some g.zeroCrc, txStep := .s7 }
  | recompute (g : Frame) (hstep : s.txStep = .s7) (hf : s.f = some g) :
      ProtocolStep s { s with
        crcReg := crc4 g.bytes, crcPhase := .closed, calcCrc := some (crc4 g.bytes), txStep := .s8 }
  | finish (t : Transaction) (g : Frame) (rx calculated : Nibble) (hstep : s.txStep = .s8)
      (hrunning : s.running = some t) (hf : s.f = some g) (hrx : s.rxCrc = some rx)
      (hcalculated : s.calcCrc = some calculated) :
      ProtocolStep s
        (endOperation (if calculated = rx then .ok (txDecode t g) else .err .integrityFault) s)

theorem checkCrc_eq (rx calculated : Nibble) (v : Value) (s : State) :
    checkCrc rx calculated v s = endOperation (if calculated = rx then .ok v else .err .integrityFault) s := by
  by_cases h : calculated = rx <;> simp [checkCrc, crcMatches_iff, h, raise]

theorem recomputeCrc_eq (g : Frame) (s : State) :
    recomputeCrc g s = { s with
      crcReg := crc4 g.bytes, crcPhase := .closed, calcCrc := some (crc4 g.bytes) } := by
  rw [recomputeCrc, engineRun_crcReg, crcOutput_eq]
  rfl

/-- A protocol step is possible and is the one that `tx_step` names. -/
theorem ProtocolStep.advances {s s' : State} (h : ProtocolStep s s') :
    s.txStep ≠ .idle ∧ txFault s = none ∧ txAdvance s = s' := by
  cases h with
  | layOut t hstep hrunning => simp [hstep, hrunning, txFault, txAdvance, txS1]
  | insertCrc f hstep hf => simp [hstep, hf, txFault, txAdvance, txS2, insertCrc_eq]
  | assertCs hstep => simp [hstep, txFault, txAdvance, txS3]
  | transfer f out hstep hf hanswer => simp [hstep, hf, hanswer, txFault, txAdvance, txS4]
  | deassertCs g hstep hout => simp [hstep, hout, txFault, txAdvance, txS5]
  | fail e hstep hout => simp [hstep, hout, txFault, txAdvance, txS5, raise]
  | extract g hstep hf => simp [hstep, hf, txFault, txAdvance, txS6, extractCrc]
  | recompute g hstep hf => simp [hstep, hf, txFault, txAdvance, txS7, recomputeCrc_eq]
  | finish t g rx calculated hstep hrunning hf hrx hcalculated =>
    simp [hstep, hrunning, hf, hrx, hcalculated, txFault, txAdvance, txS8, checkCrc_eq]

theorem ProtocolStep.step_eq {s s' : State} (h : ProtocolStep s s') : step s = .next s' := by
  obtain ⟨hrunning, hfault, hadvance⟩ := h.advances
  rw [step_of_running s hrunning, hfault, hadvance]

/-- A running transaction takes a protocol step, or it faults and stays as it is. -/
theorem protocolStep_or_stuck {s : State} (hrunning : s.txStep ≠ .idle) :
    (∃ s', ProtocolStep s s') ∨ ((∃ r, txFault s = some r) ∧ txAdvance s = s) := by
  cases hstep : s.txStep with
  | idle => exact absurd hstep hrunning
  | s1 =>
    cases ht : s.running with
    | none => exact .inr (by simp [txFault, txAdvance, txS1, hstep, ht])
    | some t => exact .inl ⟨_, .layOut t hstep ht⟩
  | s2 =>
    cases hf : s.f with
    | none => exact .inr (by simp [txFault, txAdvance, txS2, hstep, hf])
    | some f => exact .inl ⟨_, .insertCrc f hstep hf⟩
  | s3 => exact .inl ⟨_, .assertCs hstep⟩
  | s4 =>
    cases hf : s.f with
    | none => exact .inr (by simp [txFault, txAdvance, txS4, hstep, hf])
    | some f =>
      cases ha : s.nextAnswer f with
      | neverReturns => exact .inr (by simp [txFault, txAdvance, txS4, hstep, hf, ha])
      | returns out => exact .inl ⟨_, .transfer f out hstep hf ha⟩
  | s5 =>
    cases ho : s.out with
    | none => exact .inr (by simp [txFault, txAdvance, txS5, hstep, ho])
    | some out =>
      cases out with
      | ok g => exact .inl ⟨_, .deassertCs g hstep ho⟩
      | err e => exact .inl ⟨_, .fail e hstep ho⟩
  | s6 =>
    cases hf : s.f with
    | none => exact .inr (by simp [txFault, txAdvance, txS6, hstep, hf])
    | some g => exact .inl ⟨_, .extract g hstep hf⟩
  | s7 =>
    cases hf : s.f with
    | none => exact .inr (by simp [txFault, txAdvance, txS7, hstep, hf])
    | some g => exact .inl ⟨_, .recompute g hstep hf⟩
  | s8 =>
    cases ht : s.running with
    | none => exact .inr (by simp [txFault, txAdvance, txS8, hstep, ht])
    | some t =>
      cases hf : s.f with
      | none => exact .inr (by simp [txFault, txAdvance, txS8, hstep, ht, hf])
      | some g =>
        cases hrx : s.rxCrc with
        | none => exact .inr (by simp [txFault, txAdvance, txS8, hstep, ht, hf, hrx])
        | some rx =>
          cases hcalculated : s.calcCrc with
          | none => exact .inr (by simp [txFault, txAdvance, txS8, hstep, ht, hf, hrx, hcalculated])
          | some calculated => exact .inl ⟨_, .finish t g rx calculated hstep ht hf hrx hcalculated⟩

theorem protocolStep_of_txFault {s : State} (hrunning : s.txStep ≠ .idle) (hfault : txFault s = none) :
    ProtocolStep s (txAdvance s) := by
  rcases protocolStep_or_stuck hrunning with ⟨s', h⟩ | ⟨⟨r, hr⟩, -⟩
  · obtain ⟨-, -, hadvance⟩ := h.advances
    rwa [hadvance]
  · simp [hfault] at hr

theorem txAdvance_of_txFault {s : State} {r : Fault} (hrunning : s.txStep ≠ .idle) (hfault : txFault s = some r) :
    txAdvance s = s := by
  rcases protocolStep_or_stuck hrunning with ⟨s', h⟩ | ⟨-, hstays⟩
  · obtain ⟨-, hnone, -⟩ := h.advances
    simp [hfault] at hnone
  · exact hstays

/-- The machine's step inside a transaction is a protocol step. -/
theorem protocolStep_of_step {s s' : State} (hrunning : s.txStep ≠ .idle) (h : step s = .next s') :
    ProtocolStep s s' := by
  rcases step_cases s s' h with ⟨hidle, -⟩ | ⟨hidle, -⟩ | ⟨-, hfault, rfl⟩
  · exact absurd hidle hrunning
  · exact absurd hidle hrunning
  · exact protocolStep_of_txFault hrunning hfault

/-- Settles O29: each protocol step names the next, the last two Idle. -/
theorem protocolStepsFollowInOrder : Obligations.ProtocolStepsFollowInOrder := by
  unfold Obligations.ProtocolStepsFollowInOrder
  intro s s' hrunning h
  cases protocolStep_of_step hrunning h with
  | layOut _ hstep | insertCrc _ hstep | assertCs hstep | transfer _ _ hstep | deassertCs _ hstep | fail _ hstep
  | extract _ hstep | recompute _ hstep | finish _ _ _ _ hstep => rw [hstep]; rfl

theorem layout_eq_zeroCrc_requestOf (t : Transaction) : t.layout = (requestOf t).zeroCrc := by
  have hlayout : ∀ (b0 b1 b2 : Byte) (c : Nibble),
      Frame.mk b0 b1 b2 (commandByte c) = (sealedFrame b0 b1 b2 c).zeroCrc := by
    intro b0 b1 b2 c
    rw [commandByte_eq, Frame.zeroCrc, sealedFrame, zeroCrc_byte]
  cases t with
  | writeReg r v c => rw [Transaction.layout, layoutWrite, addrByte_write, hlayout]; rfl
  | readReg r c | readRegS16 r c => rw [Transaction.layout, layoutRead, addrByte_read, hlayout]; rfl
  | specialRead c => exact hlayout ..

/-- Settles O30: each listed step is a protocol step, written with the division for CRC4. -/
theorem protocolStepsDoAsListed : Obligations.ProtocolStepsDoAsListed := by
  unfold Obligations.ProtocolStepsDoAsListed
  intro s t ht
  have hcrc : ∀ f : Frame, divideBytes 0xF#4 [f.b0, f.b1, f.b2, f.b3] = crc4 f.bytes := fun f =>
    (crc4_eq_divideBytes f.bytes).symm
  simp only [hcrc]
  refine ⟨fun hstep => ?_, fun f hstep hf => ?_, fun hstep => ?_, fun f g hstep hf hanswer => ?_,
    fun f e hstep hf hanswer => ?_, fun g hstep hout => ?_, fun e hstep hout => ?_, fun g hstep hf => ?_,
    fun g hstep hf => ?_, fun g rx calculated hstep hf hrx hcalculated => ?_⟩
  · rw [(ProtocolStep.layOut t hstep ht).step_eq, layout_eq_zeroCrc_requestOf]
    rfl
  · exact (ProtocolStep.insertCrc f hstep hf).step_eq
  · rw [(ProtocolStep.assertCs hstep).step_eq, csSet, List.drop_one]
  · rw [(ProtocolStep.transfer f _ hstep hf hanswer).step_eq, transferReturned, List.drop_one]
  · rw [(ProtocolStep.transfer f _ hstep hf hanswer).step_eq, transferReturned, List.drop_one]
    simp only [← hf]
  · rw [(ProtocolStep.deassertCs g hstep hout).step_eq, csSet, List.drop_one]
  · rw [(ProtocolStep.fail e hstep hout).step_eq, endOperation_ofRunning _ _ (by simp [ht])]
    simp [csSet]
  · exact (ProtocolStep.extract g hstep hf).step_eq
  · exact (ProtocolStep.recompute g hstep hf).step_eq
  · refine ⟨if calculated = rx then .ok (txDecode t g) else .err .integrityFault, ?_, fun hne => if_neg hne,
      fun heq => ?_⟩
    · rw [(ProtocolStep.finish t g rx calculated hstep ht hf hrx hcalculated).step_eq,
        endOperation_ofRunning _ _ (by simp [ht])]
    · rw [if_pos heq, txDecode_eq_decodedBy]

/-! ### The atomic transaction and its steps -/

theorem txAdvance_of_idle {s : State} (h : s.txStep = .idle) : txAdvance s = s := by
  simp only [txAdvance, h]

theorem run_succ_of_step (M : Host.Core) {s s' : M.State} (h : M.step s = .next s') (k : Nat) :
    M.run (k + 1) s = M.run k s' := by
  rw [Host.Core.run, h]

theorem txRun_of_fixed {s : State} (h : txAdvance s = s) (n : Nat) : txRun n s = s := by
  induction n with
  | zero => rfl
  | succ n ih => rw [txRun, h, ih]

/-- Protocol steps that end at Idle are as many steps of the machine, or fewer. -/
theorem run_eq_txRun (n : Nat) (s : State) (h : (txRun n s).txStep = .idle) :
    ∃ k, k ≤ n ∧ Sys2Proof.core.run k s = .next (txRun n s) := by
  induction n generalizing s with
  | zero => exact ⟨0, Nat.le_refl 0, rfl⟩
  | succ n ih =>
    by_cases hidle : s.txStep = .idle
    · rw [txRun_of_fixed (txAdvance_of_idle hidle)]
      exact ⟨0, Nat.zero_le _, rfl⟩
    · cases hfault : txFault s with
      | some r =>
        rw [txRun_of_fixed (txAdvance_of_txFault hidle hfault)] at h
        exact absurd h hidle
      | none =>
        have hstep := (protocolStep_of_txFault hidle hfault).step_eq
        obtain ⟨k, hk, hrun⟩ := ih (txAdvance s) h
        exact ⟨k + 1, Nat.succ_le_succ hk, (run_succ_of_step Sys2Proof.core hstep k).trans hrun⟩

/-- Settles O31: the transaction is eight protocol steps, which end at Idle when the transfer returns. -/
theorem atomicTransactionEqualsItsSteps : Obligations.AtomicTransactionEqualsItsSteps := by
  unfold Obligations.AtomicTransactionEqualsItsSteps
  intro t s req out henc hanswer
  obtain rfl := eq_requestOf_of_encode henc
  have hidle : (transaction t s).txStep = .idle := by
    rw [transaction_eq, afterTransaction, hanswer]
    cases out <;> rfl
  obtain ⟨k, hk, hrun⟩ := run_eq_txRun 8 (beginTransaction t s) hidle
  exact ⟨k, transaction t s, hk, hrun, by rw [exec_transaction, transaction_eq], hidle⟩

end Sys2Proof.Machine
end

section
/-! PROOFS. The whole machine: what a step can do, the invariants at construction and along every step, and the stops
(10_state.md, 20_memory.md R51, 43_transactions.md R164 to R168, 60_exceptions.md R213). -/

namespace Sys2Proof.Machine

/-! ### The step at Idle -/

theorem step_of_call {s : State} {c : Call} {rest : List Call} {i : Instr} (hidle : s.txStep = .idle)
    (hcalls : s.calls = c :: rest) (hresolve : c.resolve = .ok i) : step s = exec i { s with calls := rest } := by
  simp only [step_of_idle s hidle, hcalls, hresolve]

/-- Settles O36: the two clauses are the two cases of the queue of calls. -/
theorem stepRunsResolvedCall : Obligations.StepRunsResolvedCall := by
  unfold Obligations.StepRunsResolvedCall
  intro s hidle
  refine ⟨fun hcalls => ?_, fun c rest i hcalls hresolve => step_of_call hidle hcalls hresolve⟩
  simp only [step_of_idle s hidle, hcalls]

theorem resolve_word_of_decodeTableWord {nbits w : Nat} {i : Instr} (h : decodeTableWord nbits w = some i) :
    (Call.word (tableBytes nbits w)).resolve = .ok i := by
  unfold decodeTableWord at h
  rw [Call.resolve]
  cases hword : decodeWord (tableBytes nbits w) with
  | error e => simp [hword] at h
  | ok j => simpa [hword] using h

/-- Settles O37: the placed word is the next call, and it resolves to the decoded operation. -/
theorem stepRunsDecodedWord : Obligations.StepRunsDecodedWord := by
  unfold Obligations.StepRunsDecodedWord
  intro s w i hdecode
  exact step_of_call (s := s.withFetchWord 32 w) rfl rfl (resolve_word_of_decodeTableWord hdecode)

/-! ### What a step can do -/

/-- The next states of an operation: a transaction hung or returned, a component's result over a change of the
engine, or the end of VALIDATE. -/
inductive OperationEnd (s : State) : State → Prop
  | hangs (t : Transaction) : OperationEnd s (hung s t (requestOf t))
  | returns (t : Transaction) (out : XferOutcome) (k : Nibble) (r : OpResult) :
      OperationEnd s (returned s (requestOf t) out k r)
  | delivers (k : Nibble) (p : CrcPhase) (r : OpResult) :
      OperationEnd s { s with crcReg := k, crcPhase := p, results := s.results ++ [r] }
  | validates (k : Nibble) (p : CrcPhase) (r : OpResult) :
      OperationEnd s (endOperation r { s with crcReg := k, crcPhase := p })

theorem operationEnd_of_exec {i : Instr} {s s' : State} (h : exec i s = .next s') : OperationEnd s s' := by
  rcases exec_cases i s s' h with ⟨t, -, rfl⟩ | ⟨k, p, r, rfl⟩ | ⟨k, p, r, rfl⟩
  · rcases afterTransaction_cases s t with ⟨-, hhung⟩ | ⟨out, k, r, hreturned⟩
    · rw [hhung]
      exact .hangs t
    · rw [hreturned]
      exact .returns t out k r
  · exact .delivers k p r
  · exact .validates k p r

/-- The next states of a step: rest, the end of an operation whose call was taken, or a protocol step. -/
theorem step_next_cases {s s' : State} (h : step s = .next s') :
    (s.txStep = .idle ∧ s.calls = [] ∧ s' = s) ∨
    (s.txStep = .idle ∧ OperationEnd { s with calls := s.calls.tail } s') ∨
    (s.txStep ≠ .idle ∧ ProtocolStep s s') := by
  rcases step_cases s s' h with hrest | ⟨hidle, c, rest, i, hcalls, hexec⟩ | ⟨hrunning, -, -⟩
  · exact .inl hrest
  · have htail : s.calls.tail = rest := by rw [hcalls, List.tail_cons]
    rw [← htail] at hexec
    exact .inr (.inl ⟨hidle, operationEnd_of_exec hexec⟩)
  · exact .inr (.inr ⟨hrunning, protocolStep_of_step hrunning h⟩)

/-! ### The block's invariant (10_state.md R25, R26, R28; 43_transactions.md R168) -/

/-- At Idle the invariant says that nothing of a transaction exists and chip-select is High. -/
theorem inv_of_idle {s : State} (hidle : s.txStep = .idle) (hrunning : s.running = none) (hf : s.f = none)
    (hout : s.out = none) (hrx : s.rxCrc = none) (hcalc : s.calcCrc = none) (hcs : s.cs = .high) : Inv s where
  running := by rw [hidle, hrunning]; rfl
  frame := by rw [hidle, hf]; rfl
  out := by rw [hidle, hout]; rfl
  rx := by rw [hidle, hrx]; rfl
  calculated := by rw [hidle, hcalc]; rfl
  chipSelect := by rw [hidle, hcs]; rfl
  engine := by rw [hidle]; intro h; cases h

theorem Inv.running_of_idle {s : State} (h : Inv s) (hidle : s.txStep = .idle) : s.running = none := by
  simpa [hidle, TxStep.isRunning] using h.running

theorem Inv.cs_of_idle {s : State} (h : Inv s) (hidle : s.txStep = .idle) : s.cs = .high := by
  simpa [hidle, TxStep.csLevel] using h.chipSelect

theorem Inv.running_of_step {s : State} (h : Inv s) (hstep : s.txStep ≠ .idle) : s.running.isSome = true := by
  rw [h.running]
  cases ht : s.txStep <;> simp_all [TxStep.isRunning]

/-- Each protocol step creates, drops or drives exactly what the invariant lists for the step after it. -/
theorem ProtocolStep.inv {s s' : State} (h : ProtocolStep s s') (hinv : Inv s) : Inv s' := by
  obtain ⟨hrunning, hframe, hout, hrx, hcalc, hcs, hengine⟩ := hinv
  cases s
  cases h with
  | layOut t hstep => cases hstep; exact ⟨hrunning, rfl, hout, hrx, hcalc, hcs, hengine⟩
  | insertCrc f hstep => cases hstep; exact ⟨hrunning, rfl, hout, hrx, hcalc, hcs, fun _ => rfl⟩
  | assertCs hstep => cases hstep; exact ⟨hrunning, hframe, hout, hrx, hcalc, rfl, hengine⟩
  | transfer f out hstep => cases hstep; exact ⟨hrunning, by cases out <;> rfl, rfl, hrx, hcalc, hcs, hengine⟩
  | deassertCs g hstep => cases hstep; exact ⟨hrunning, hframe, rfl, hrx, hcalc, rfl, hengine⟩
  | fail e hstep => exact inv_of_idle rfl rfl rfl rfl rfl rfl rfl
  | extract g hstep => cases hstep; exact ⟨hrunning, rfl, hout, rfl, hcalc, hcs, hengine⟩
  | recompute g hstep => cases hstep; exact ⟨hrunning, hframe, hout, hrx, rfl, hcs, fun _ => rfl⟩
  | finish t g rx calculated hstep => cases hstep; exact inv_of_idle rfl rfl rfl rfl rfl rfl hcs

theorem Inv.withCalls {s : State} (h : Inv s) (calls : List Call) : Inv { s with calls := calls } :=
  ⟨h.running, h.frame, h.out, h.rx, h.calculated, h.chipSelect, h.engine⟩

/-- A hung transaction stands at S4 as the invariant says; every other end of an operation is Idle. -/
theorem OperationEnd.inv {s s' : State} (h : OperationEnd s s') (hidle : s.txStep = .idle) (hinv : Inv s) : Inv s' := by
  cases h with
  | hangs t => exact ⟨rfl, rfl, rfl, rfl, rfl, rfl, fun _ => rfl⟩
  | returns t out k r => exact inv_of_idle rfl rfl rfl rfl rfl rfl rfl
  | delivers k p r =>
    obtain ⟨hrunning, hframe, hout, hrx, hcalc, hcs, -⟩ := hinv
    exact ⟨hrunning, hframe, hout, hrx, hcalc, hcs, fun hclosed => by simp [hidle, TxStep.crcClosed] at hclosed⟩
  | validates k p r => exact inv_of_idle rfl rfl rfl rfl rfl rfl (hinv.cs_of_idle hidle)

/-- Settles O46: rest, the ends of operations and the protocol steps keep the invariant. -/
theorem blockInvariantIsKept : Obligations.BlockInvariantIsKept := by
  unfold Obligations.BlockInvariantIsKept
  intro s s' hinv h
  rcases step_next_cases h with ⟨-, -, rfl⟩ | ⟨hidle, hend⟩ | ⟨-, hprotocol⟩
  · exact hinv
  · exact hend.inv hidle (hinv.withCalls _)
  · exact hprotocol.inv hinv

/-! ### What a step adds to the log, the results and the calls (20_memory.md R51, 10_state.md R32) -/

theorem endOperation_log_grows (r : OpResult) (s : State) :
    ∃ events, (endOperation r s).log = s.log ++ events ∧ ∀ e ∈ events, e = .result r := by
  rw [endOperation_log]
  split
  · exact ⟨[.result r], rfl, by simp⟩
  · exact ⟨[], (List.append_nil _).symm, by simp⟩

/-- A protocol step only adds to the log, and the exchange it may add is that of S4 with the request in the buffer. -/
theorem ProtocolStep.log_grows {s s' : State} (h : ProtocolStep s s') :
    ∃ events, s'.log = s.log ++ events ∧
      ∀ req out, Event.xfer req out ∈ events → s.txStep = .s4 ∧ s.f = some req := by
  cases h with
  | layOut | insertCrc | extract | recompute => exact ⟨[], (List.append_nil _).symm, by simp⟩
  | assertCs | deassertCs => exact ⟨_, rfl, by simp⟩
  | transfer f out hstep hf => exact ⟨_, rfl, by simp [hstep, hf, eq_comm]⟩
  | fail e =>
    obtain ⟨events, hlog, honly⟩ := endOperation_log_grows (.err (.transportFault e)) (csSet .high s)
    refine ⟨.csSet .high :: events, by rw [hlog]; simp, fun req out hmem => ?_⟩
    rcases List.mem_cons.mp hmem with hcs | hresult
    · cases hcs
    · cases honly _ hresult
  | finish =>
    obtain ⟨events, hlog, honly⟩ := endOperation_log_grows _ s
    exact ⟨events, hlog, fun req out hmem => by cases honly _ hmem⟩

theorem ProtocolStep.results_grow {s s' : State} (h : ProtocolStep s s') : s.results <+: s'.results := by
  cases h with
  | fail | finish => exact List.prefix_append ..
  | _ => exact List.prefix_rfl

theorem ProtocolStep.calls_eq {s s' : State} (h : ProtocolStep s s') : s'.calls = s.calls := by
  cases h <;> rfl

theorem OperationEnd.log_grows {s s' : State} (h : OperationEnd s s') : s.log <+: s'.log := by
  cases h with
  | hangs | returns => exact List.prefix_append ..
  | delivers => exact List.prefix_rfl
  | validates k p r =>
    obtain ⟨events, hlog, -⟩ := endOperation_log_grows r { s with crcReg := k, crcPhase := p }
    exact ⟨events, hlog.symm⟩

theorem OperationEnd.results_grow {s s' : State} (h : OperationEnd s s') : s.results <+: s'.results := by
  cases h with
  | hangs => exact List.prefix_rfl
  | returns | delivers | validates => exact List.prefix_append ..

theorem OperationEnd.calls_eq {s s' : State} (h : OperationEnd s s') : s'.calls = s.calls := by
  cases h <;> rfl

/-- Settles O50: events and results are appended, by operations and by protocol steps. -/
theorem logAndResultsOnlyGrow : Obligations.LogAndResultsOnlyGrow := by
  unfold Obligations.LogAndResultsOnlyGrow
  intro s s' h
  rcases step_next_cases h with ⟨-, -, rfl⟩ | ⟨-, hend⟩ | ⟨-, hprotocol⟩
  · exact ⟨List.prefix_rfl, List.prefix_rfl⟩
  · exact ⟨hend.log_grows, hend.results_grow⟩
  · obtain ⟨events, hlog, -⟩ := hprotocol.log_grows
    exact ⟨⟨events, hlog.symm⟩, hprotocol.results_grow⟩

/-- Settles O51: the step at Idle takes the first call, and neither operations nor protocol steps touch the queue. -/
theorem callsAreTakenInOrder : Obligations.CallsAreTakenInOrder := by
  unfold Obligations.CallsAreTakenInOrder
  intro s s' h
  rcases step_next_cases h with ⟨hidle, hcalls, rfl⟩ | ⟨hidle, hend⟩ | ⟨hrunning, hprotocol⟩
  · exact ⟨fun _ => by rw [hcalls, List.tail_nil], fun hnot => absurd hidle hnot⟩
  · exact ⟨fun _ => hend.calls_eq, fun hnot => absurd hidle hnot⟩
  · exact ⟨fun hidle => absurd hidle hrunning, fun _ => hprotocol.calls_eq⟩

/-! ### The log: whole groups around each transfer (43_transactions.md R162, R164, R165) -/

theorem logPhase_append (log events : List Event) :
    logPhase (log ++ events) = events.foldl LogPhase.next (logPhase log) := List.foldl_append

/-- The next events take a bracketed log to the phase of the next state's step. -/
theorem LogBracketed.append {s s' : State} (h : LogBracketed s) {events : List Event} (hlog : s'.log = s.log ++ events)
    (hphase : events.foldl LogPhase.next (some s.txStep.logPhase) = some s'.txStep.logPhase) : LogBracketed s' := by
  rw [LogBracketed, hlog, logPhase_append, h, hphase]

theorem ProtocolStep.logBracketed {s s' : State} (h : ProtocolStep s s') (hinv : Inv s) (hlog : LogBracketed s) :
    LogBracketed s' := by
  have hrunning := hinv.running_of_step h.advances.1
  cases h with
  | layOut t hstep | insertCrc f hstep | extract g hstep | recompute g hstep =>
    exact hlog.append (events := []) (List.append_nil _).symm (by rw [hstep]; rfl)
  | assertCs hstep => exact hlog.append (events := [.csSet .low]) rfl (by rw [hstep]; rfl)
  | transfer f out hstep => exact hlog.append (events := [.xfer f out]) rfl (by rw [hstep]; rfl)
  | deassertCs g hstep => exact hlog.append (events := [.csSet .high]) rfl (by rw [hstep]; rfl)
  | fail e hstep =>
    exact hlog.append (events := [.csSet .high, .result (.err (.transportFault e))])
      (by simp [hrunning]) (by rw [hstep]; rfl)
  | finish t g rx calculated hstep =>
    exact hlog.append (events := [.result _]) (by rw [endOperation_log, if_pos hrunning]) (by rw [hstep]; rfl)

/-- A hung transaction adds CsSet(Low), a returned one a whole group, the other operations nothing. -/
theorem OperationEnd.logBracketed {s s' : State} (h : OperationEnd s s') (hidle : s.txStep = .idle) (hinv : Inv s)
    (hlog : LogBracketed s) : LogBracketed s' := by
  cases h with
  | hangs t => exact hlog.append (events := [.csSet .low]) rfl (by rw [hidle]; rfl)
  | returns t out k r =>
    exact hlog.append (events := [.csSet .low, .xfer (requestOf t) out, .csSet .high, .result r]) rfl
      (by rw [hidle]; rfl)
  | delivers => exact hlog
  | validates => exact hlog.append (events := []) (by simp [hinv.running_of_idle hidle]) (by rw [hidle]; rfl)

/-- Settles O48: each step adds the events of its part of a group. -/
theorem logBracketingIsKept : Obligations.LogBracketingIsKept := by
  unfold Obligations.LogBracketingIsKept
  intro s s' hinv hlog h
  rcases step_next_cases h with ⟨-, -, rfl⟩ | ⟨hidle, hend⟩ | ⟨-, hprotocol⟩
  · exact hlog
  · exact hend.logBracketed hidle (hinv.withCalls _) hlog
  · exact hprotocol.logBracketed hinv hlog

/-! ### The requests on the wire (30_encoding.md R74) -/

theorem LogRequestsEncoded.append {s s' : State} (h : LogRequestsEncoded s) {events : List Event}
    (hlog : s'.log = s.log ++ events)
    (hevents : ∀ req out, Event.xfer req out ∈ events → ∃ t : Transaction, encode t.instr = some req) :
    LogRequestsEncoded s' := by
  intro req out hmem
  rw [hlog, List.mem_append] at hmem
  rcases hmem with hold | hnew
  · exact h req out hold
  · exact hevents req out hnew

/-- Only the states before S2, S3 and S4 hold a request. -/
theorem bufferHoldsRequest_of_other {s : State} (h2 : s.txStep ≠ .s2) (h3 : s.txStep ≠ .s3) (h4 : s.txStep ≠ .s4) :
    BufferHoldsRequest s :=
  ⟨fun h => absurd h h2, fun h => h.elim (absurd · h3) (absurd · h4)⟩

/-- Before S3 and S4 the buffer must hold the running transaction's encoding. -/
theorem bufferHoldsRequest_of_encoded {s : State} {t : Transaction} (h2 : s.txStep ≠ .s2)
    (hrunning : s.running = some t) (hf : s.f = encode t.instr) : BufferHoldsRequest s :=
  ⟨fun h => absurd h h2, fun _ => ⟨t, hrunning, hf⟩⟩

theorem ProtocolStep.bufferHoldsRequest {s s' : State} (h : ProtocolStep s s') (hbuffer : BufferHoldsRequest s) :
    BufferHoldsRequest s' := by
  obtain ⟨hlayout, hencoded⟩ := hbuffer
  cases h with
  | layOut t hstep hrunning => exact ⟨fun _ => ⟨t, hrunning, rfl⟩, fun hwrong => by simp at hwrong⟩
  | insertCrc f hstep hf =>
    obtain ⟨t, hrunning, ht⟩ := hlayout hstep
    obtain rfl := Option.some.inj (hf.symm.trans ht)
    exact bufferHoldsRequest_of_encoded (by simp) hrunning (by rw [encode_transaction, layout_sealed])
  | assertCs hstep =>
    obtain ⟨t, hrunning, ht⟩ := hencoded (.inl hstep)
    exact bufferHoldsRequest_of_encoded (by simp) hrunning ht
  | transfer | deassertCs | fail | extract | recompute | finish =>
    exact bufferHoldsRequest_of_other (by simp) (by simp) (by simp)

theorem ProtocolStep.logRequestsEncoded {s s' : State} (h : ProtocolStep s s') (hbuffer : BufferHoldsRequest s)
    (hlog : LogRequestsEncoded s) : LogRequestsEncoded s' := by
  obtain ⟨events, hevents, hxfer⟩ := h.log_grows
  refine hlog.append hevents fun req out hmem => ?_
  obtain ⟨hstep, hf⟩ := hxfer req out hmem
  obtain ⟨-, hencoded⟩ := hbuffer
  obtain ⟨t, -, ht⟩ := hencoded (.inr hstep)
  exact ⟨t, ht.symm.trans hf⟩

theorem OperationEnd.bufferHoldsRequest {s s' : State} (h : OperationEnd s s') (hbuffer : BufferHoldsRequest s) :
    BufferHoldsRequest s' := by
  cases h with
  | hangs t => exact bufferHoldsRequest_of_encoded (by simp [hung]) rfl (encode_transaction t).symm
  | returns =>
    exact bufferHoldsRequest_of_other (by simp [returned]) (by simp [returned]) (by simp [returned])
  | delivers => exact hbuffer
  | validates => exact bufferHoldsRequest_of_other (by simp) (by simp) (by simp)

/-- The one exchange an operation logs is that of a transaction's encoding. -/
theorem OperationEnd.logRequestsEncoded {s s' : State} (h : OperationEnd s s') (hlog : LogRequestsEncoded s) :
    LogRequestsEncoded s' := by
  cases h with
  | hangs t => exact hlog.append (events := [.csSet .low]) rfl (by simp)
  | returns t out k r =>
    refine hlog.append (events := [.csSet .low, .xfer (requestOf t) out, .csSet .high, .result r]) rfl ?_
    intro req o hmem
    simp only [List.mem_cons, reduceCtorEq, Event.xfer.injEq, List.not_mem_nil, or_false, false_or] at hmem
    exact ⟨t, by rw [encode_transaction, hmem.1]⟩
  | delivers => exact hlog
  | validates k p r =>
    obtain ⟨events, hevents, honly⟩ := endOperation_log_grows r { s with crcReg := k, crcPhase := p }
    exact hlog.append hevents fun req out hmem => by cases honly _ hmem

/-- Settles O49: an operation sends its transaction's encoding, and inside a transaction the buffer holds it until
the transfer. -/
theorem emittedRequestsStayEncodings : Obligations.EmittedRequestsStayEncodings := by
  unfold Obligations.EmittedRequestsStayEncodings
  intro s s' _ hbuffer hlog h
  rcases step_next_cases h with ⟨-, -, rfl⟩ | ⟨-, hend⟩ | ⟨-, hprotocol⟩
  · exact ⟨hbuffer, hlog⟩
  · exact ⟨hend.bufferHoldsRequest hbuffer, hend.logRequestsEncoded hlog⟩
  · exact ⟨hprotocol.bufferHoldsRequest hbuffer, hprotocol.logRequestsEncoded hbuffer hlog⟩

/-! ### Construction (70_reset_and_hazards.md R241, R242) -/

/-- Settles O1: the constructed state's fields are its two parameters and constants. -/
theorem constructionLeavesBlockIdle : Obligations.ConstructionLeavesBlockIdle := by
  unfold Obligations.ConstructionLeavesBlockIdle
  exact ⟨fun k l => ⟨⟨rfl, rfl, rfl, rfl, rfl, rfl⟩, rfl, rfl, rfl, rfl, rfl⟩, Config.crcPowerup, rfl⟩

theorem inv_constructed (k : Nibble) : Inv (State.constructed k .high) :=
  inv_of_idle rfl rfl rfl rfl rfl rfl rfl

theorem logBracketed_constructed (k : Nibble) (l : CsLevel) : LogBracketed (State.constructed k l) := rfl

theorem logRequestsEncoded_constructed (k : Nibble) (l : CsLevel) : LogRequestsEncoded (State.constructed k l) := by
  intro req out hmem
  cases hmem

theorem bufferHoldsRequest_constructed (k : Nibble) (l : CsLevel) : BufferHoldsRequest (State.constructed k l) :=
  bufferHoldsRequest_of_other (by simp [State.constructed]) (by simp [State.constructed]) (by simp [State.constructed])

/-- Settles O47: the constructed state is Idle with an empty log, and reset is one such state. -/
theorem blockInvariantAtConstruction : Obligations.BlockInvariantAtConstruction := by
  unfold Obligations.BlockInvariantAtConstruction
  exact ⟨fun k => ⟨inv_constructed k, logBracketed_constructed k .high, logRequestsEncoded_constructed k .high,
    bufferHoldsRequest_constructed k .high⟩, inv_constructed _, logBracketed_constructed ..⟩

/-! ### The stops of a sound state (43_transactions.md R166; 60_exceptions.md R213, R214) -/

/-- Under the invariant a running transaction has the data its next step reads; only an answer can be missing. -/
theorem txFault_eq_some_of_inv {s : State} {q : Fault} (hinv : Inv s) (h : txFault s = some q) :
    q = .transferNeverReturns ∧ s.txStep = .s4 ∧ ∃ req, s.f = some req ∧ s.nextAnswer req = .neverReturns := by
  obtain ⟨hrunning, hframe, hout, hrx, hcalc, -, -⟩ := hinv
  cases hstep : s.txStep with
  | idle | s3 => simp [txFault, hstep] at h
  | s1 => simp [txFault, hstep, hrunning, TxStep.isRunning] at h
  | s2 | s6 | s7 => simp [txFault, hstep, hframe, TxStep.hasFrame] at h
  | s5 => simp [txFault, hstep, hout, TxStep.hasOutcome] at h
  | s8 =>
    simp [txFault, hstep, hrunning, hframe, hrx, hcalc, TxStep.isRunning, TxStep.hasFrame, TxStep.hasRxCrc,
      TxStep.hasCalcCrc] at h
  | s4 =>
    have hsome : s.f.isSome = true := by rw [hframe, hstep]; rfl
    obtain ⟨req, hf⟩ := Option.isSome_iff_exists.mp hsome
    cases hanswer : s.nextAnswer req with
    | returns out => simp [txFault, hstep, hf, hanswer] at h
    | neverReturns =>
      simp only [txFault, hstep, hf, hanswer, Option.some.injEq] at h
      exact ⟨h.symm, rfl, req, hf, hanswer⟩

/-- A fault is a running transaction's. -/
theorem txFault_of_step_fault {s : State} {q : Fault} (h : step s = .fault q) :
    s.txStep ≠ .idle ∧ txFault s = some q := by
  by_cases hidle : s.txStep = .idle
  · rw [step_of_idle s hidle] at h
    split at h
    · cases h
    · split at h
      · cases h
      · exact absurd h (exec_ne_fault _ _ _)
  · refine ⟨hidle, ?_⟩
    rw [step_of_running s hidle] at h
    split at h
    · next hfault =>
      cases h
      exact hfault
    · cases h

/-- Settles O55: a fault is a running transaction's, and under the invariant it is the unanswered transfer's. -/
theorem stuckOnlyInUnansweredTransfer : Obligations.StuckOnlyInUnansweredTransfer := by
  unfold Obligations.StuckOnlyInUnansweredTransfer
  intro s q hinv h
  obtain ⟨-, hfault⟩ := txFault_of_step_fault h
  obtain ⟨hq, hstep, hreq⟩ := txFault_eq_some_of_inv hinv hfault
  have hcs : s.cs = .low := by rw [hinv.chipSelect, hstep, TxStep.csLevel]
  exact ⟨hq, hstep, hcs, hreq⟩

/-- A refusal is of the first call: it does not resolve, or its operation is refused. -/
theorem refused_call_of_step {s : State} {q : Refusal} (h : step s = .refused q) :
    s.txStep = .idle ∧ ∃ c rest, s.calls = c :: rest ∧
      ((∃ why, c.resolve = .error why ∧ q = refusalOf why) ∨
       (∃ i, c.resolve = .ok i ∧ exec i { s with calls := rest } = .refused q)) := by
  by_cases hidle : s.txStep = .idle
  · refine ⟨hidle, ?_⟩
    rw [step_of_idle s hidle] at h
    split at h
    · cases h
    · next c rest hcalls =>
      refine ⟨c, rest, hcalls, ?_⟩
      split at h
      · next why hwhy =>
        cases h
        exact .inl ⟨why, hwhy, rfl⟩
      · next i hi => exact .inr ⟨i, hi, h⟩
  · rw [step_of_running s hidle] at h
    split at h <;> cases h

theorem eq_of_crcOpcode {i : Instr} (h : i.opcode = .crcUpdate ∨ i.opcode = .crcFinish) :
    i = .crcFinish ∨ ∃ bs, i = .crcUpdate bs := by
  cases i <;> simp [Instr.opcode] at h ⊢

/-- Settles O56: the first call's refusal, whose operation can only be a CRC operation on an engine not Open. -/
theorem refusedOnlyForNextCall : Obligations.RefusedOnlyForNextCall := by
  unfold Obligations.RefusedOnlyForNextCall
  intro s q hinv h
  obtain ⟨hidle, c, rest, hcalls, hcases⟩ := refused_call_of_step h
  refine ⟨hidle, hinv.cs_of_idle hidle, c, rest, hcalls, ?_⟩
  rcases hcases with hwhy | ⟨i, hi, hexec⟩
  · exact .inl hwhy
  · obtain ⟨hq, hphase, hop⟩ := (exec_eq_refused_iff i _ q).mp hexec
    exact .inr ⟨i, hi, eq_of_crcOpcode hop, hphase, hq⟩

end Sys2Proof.Machine
end

section
/-! PROOFS. The transport's errors are opaque: every outcome commutes with replacing them (00_scope.md R8,
60_exceptions.md R210). -/

namespace Sys2Proof.Machine

section
variable (φ : TransportError → TransportError)

/-- The outcome with the errors in its next state replaced. -/
def mapOutcome : Host.Outcome State Fault Refusal → Host.Outcome State Fault Refusal
  | .next s => .next (s.mapErrors φ)
  | .fault q => .fault q
  | .refused q => .refused q

theorem afterTransaction_mapErrors (t : Transaction) {s : State} (h : s.answers ≠ []) :
    afterTransaction (s.mapErrors φ) t (requestOf t) (txDecode t) =
      (afterTransaction s t (requestOf t) (txDecode t)).mapErrors φ := by
  unfold afterTransaction
  rw [nextAnswer_mapErrors φ s _ h]
  cases s.nextAnswer (requestOf t) with
  | neverReturns => simp [mapAnswer, hung, State.mapErrors, mapEvent]
  | returns out =>
    cases out with
    | err e => simp [mapAnswer, mapXferOutcome, returned, State.mapErrors, mapEvent, mapResult]
    | ok g =>
      by_cases hvalid : responseCrc g = embeddedCrc g <;>
        simp [mapAnswer, mapXferOutcome, returned, State.mapErrors, mapEvent, mapResult, hvalid]

theorem exec_transaction_mapErrors (t : Transaction) {s : State} (h : s.answers ≠ []) :
    exec t.instr (s.mapErrors φ) = mapOutcome φ (exec t.instr s) := by
  rw [exec_transaction, exec_transaction, mapOutcome, afterTransaction_mapErrors φ t h]

theorem mapResult_validationResult (g : Frame) : mapResult φ (validationResult g) = validationResult g := by
  unfold validationResult
  split <;> rfl

/-- An operation reads no error, and an error it got is in its next state as it was. -/
theorem exec_mapErrors (i : Instr) {s : State} (h : s.answers ≠ []) :
    exec i (s.mapErrors φ) = mapOutcome φ (exec i s) := by
  have hdeliver : ∀ (v : Value) (s' : State), Host.Outcome.next (deliver (.ok v) (s'.mapErrors φ)) =
      mapOutcome φ (.next (deliver (.ok v) s')) := fun v s' =>
    congrArg Host.Outcome.next (deliver_mapErrors φ (.ok v) s')
  cases i with
  | writeReg r v c => exact exec_transaction_mapErrors φ (.writeReg r v c) h
  | readReg r c => exact exec_transaction_mapErrors φ (.readReg r c) h
  | readRegS16 r c => exact exec_transaction_mapErrors φ (.readRegS16 r c) h
  | specialRead c => exact exec_transaction_mapErrors φ (.specialRead c) h
  | crcUpdate bs =>
    by_cases hphase : s.crcPhase = .opened
    · rw [exec_crcUpdate_opened bs hphase, exec_crcUpdate_opened bs (s := s.mapErrors φ) hphase]
      exact hdeliver .unit (engineUpdate bs s)
    · rw [exec_crcUpdate_notOpened bs hphase, exec_crcUpdate_notOpened bs (s := s.mapErrors φ) hphase, mapOutcome]
  | crcFinish =>
    by_cases hphase : s.crcPhase = .opened
    · rw [exec_crcFinish_opened hphase, exec_crcFinish_opened (s := s.mapErrors φ) hphase]
      exact hdeliver (.u4 s.crcReg) (engineFinish s)
    · rw [exec_crcFinish_notOpened hphase, exec_crcFinish_notOpened (s := s.mapErrors φ) hphase, mapOutcome]
  | validate g =>
    have hend := endOperation_mapErrors φ (validationResult g) { s with crcReg := responseCrc g, crcPhase := .closed }
    rw [mapResult_validationResult] at hend
    rw [exec_validate, exec_validate, mapOutcome, ← hend]
    rfl
  | crcReset => exact hdeliver _ (engineReset s)
  | frameWrite r v c => exact hdeliver _ (insertCrc (layoutWrite r v c) s).2
  | frameRead r c => exact hdeliver _ (insertCrc (layoutRead r c) s).2
  | frameSpecial c => exact hdeliver _ (insertCrc (layoutSpecial c) s).2
  | decodeReg g | decodeRegS16 g | decodeDual g | addrEncode r | addrDecode code => exact hdeliver _ s

theorem csSet_mapErrors (l : CsLevel) (s : State) : csSet l (s.mapErrors φ) = (csSet l s).mapErrors φ := by
  simp [csSet, State.mapErrors, mapEvent]

theorem transferReturned_mapErrors (req : Frame) (out : XferOutcome) (s : State) :
    transferReturned req (mapXferOutcome φ out) (s.mapErrors φ) = (transferReturned req out s).mapErrors φ := by
  cases out <;> simp [transferReturned, State.mapErrors, mapEvent, mapXferOutcome]

/-- A protocol step's outcome is handed on as it is replaced. -/
theorem ProtocolStep.mapErrors {s s' : State} (h : ProtocolStep s s') (hanswers : s.answers ≠ []) :
    ProtocolStep (s.mapErrors φ) (s'.mapErrors φ) := by
  cases h with
  | layOut t hstep hrunning => exact .layOut t hstep hrunning
  | insertCrc f hstep hf => exact .insertCrc f hstep hf
  | assertCs hstep =>
    have hnext := ProtocolStep.assertCs (s := s.mapErrors φ) hstep
    rwa [csSet_mapErrors] at hnext
  | transfer f out hstep hf hanswer =>
    have hmapped : (s.mapErrors φ).nextAnswer f = .returns (mapXferOutcome φ out) := by
      rw [nextAnswer_mapErrors φ s f hanswers, hanswer, mapAnswer]
    have hnext := ProtocolStep.transfer (s := s.mapErrors φ) f _ hstep hf hmapped
    rwa [transferReturned_mapErrors] at hnext
  | deassertCs g hstep hout =>
    have hnext := ProtocolStep.deassertCs (s := s.mapErrors φ) g hstep (by rw [mapErrors_out, hout]; rfl)
    rwa [csSet_mapErrors] at hnext
  | fail e hstep hout =>
    have hnext := ProtocolStep.fail (s := s.mapErrors φ) (φ e) hstep (by rw [mapErrors_out, hout]; rfl)
    rw [csSet_mapErrors] at hnext
    rwa [← endOperation_mapErrors φ]
  | extract g hstep hf => exact .extract g hstep hf
  | recompute g hstep hf => exact .recompute g hstep hf
  | finish t g rx calculated hstep hrunning hf hrx hcalculated =>
    have hnext := ProtocolStep.finish (s := s.mapErrors φ) t g rx calculated hstep hrunning hf hrx hcalculated
    have hresult : ∀ v : Value, mapResult φ (if calculated = rx then .ok v else .err .integrityFault) =
        if calculated = rx then .ok v else .err .integrityFault := by
      intro v
      split <;> rfl
    rwa [← endOperation_mapErrors φ, hresult]

theorem txFault_mapErrors {s : State} (h : s.answers ≠ []) : txFault (s.mapErrors φ) = txFault s := by
  cases hstep : s.txStep with
  | s4 =>
    cases hf : s.f with
    | none => simp [txFault, hstep, hf]
    | some f =>
      cases hanswer : s.nextAnswer f <;>
        simp [txFault, hstep, hf, nextAnswer_mapErrors φ s f h, hanswer, mapAnswer]
  | idle | s3 | s5 | s8 => simp [txFault, hstep]
  | s1 | s2 | s6 | s7 =>
    simp only [txFault, mapErrors_txStep, hstep]
    rfl

theorem step_mapErrors {s : State} (h : s.answers ≠ []) : step (s.mapErrors φ) = mapOutcome φ (step s) := by
  by_cases hidle : s.txStep = .idle
  · rw [step_of_idle s hidle, step_of_idle (s.mapErrors φ) hidle, mapErrors_calls]
    cases s.calls with
    | nil => rfl
    | cons c rest =>
      cases hresolve : c.resolve with
      | error e => simp only [hresolve, mapOutcome]
      | ok i =>
        simp only [hresolve]
        exact exec_mapErrors φ i (s := { s with calls := rest }) h
  · cases hfault : txFault s with
    | some q =>
      rw [step_of_running s hidle, step_of_running (s.mapErrors φ) hidle, txFault_mapErrors φ h, hfault, mapOutcome]
    | none =>
      have hnext := protocolStep_of_txFault hidle hfault
      rw [hnext.step_eq, (hnext.mapErrors φ h).step_eq, mapOutcome]

end

/-- Settles O57: the step commutes with the replacement, outcome by outcome. -/
theorem transportErrorsAreOpaque : Obligations.TransportErrorsAreOpaque := by
  unfold Obligations.TransportErrorsAreOpaque
  intro φ s hanswers
  have hmap := step_mapErrors φ hanswers
  exact ⟨fun s' h => by rw [hmap, h, mapOutcome], fun q h => by rw [hmap, h, mapOutcome],
    fun q h => by rw [hmap, h, mapOutcome]⟩

end Sys2Proof.Machine
end
